-- ==== Sys2Proof/Word.lean ====
section
/-! DEFINITION. The plain value types of the block: bytes, the dispatch word, the slot index, the
four events, the five decode states and the register that holds their code. -/

namespace Sys2Proof

/-- One byte of a frame (20_memory.md R39). -/
abbrev Byte := BitVec 8

/-- The 7-bit dispatch word `{ev, armed, ready, state}` (30_encoding.md R64). -/
abbrev DispatchWord := BitVec 7

/-- A slot address of FrameBuffer, and the value of BitIndex: 5 bits, 0 to 31 (20_memory.md R33,
10_state.md R15). -/
abbrev SlotIdx := Fin 32

/-- The four operations, one per event kind (00_scope.md R6). -/
inductive Event where
  | tick
  | edge
  | tryReceive
  | reset
  deriving DecidableEq, Repr

/-- The control state of the Frame State Machine: exactly five values (10_state.md R13). -/
inductive DecodeState where
  | idle
  | awaitingStartLow
  | awaitingFirstBitGap
  | awaitingBitMark
  | awaitingBitSpace
  deriving DecidableEq, Repr

/-- The three state codes that name no state: 5, 6 and 7 (30_encoding.md R61). -/
inductive ReservedCode where
  | s5
  | s6
  | s7
  deriving DecidableEq, Repr

/-- What a 3-bit DecodeState register can hold: one of the five states, or a reserved code that a
model which stores the code must refuse (30_encoding.md R60, R61).
DESIGN CHOICE (log entry 4). -/
inductive StateReg where
  | named (d : DecodeState)
  | reserved (c : ReservedCode)
  deriving DecidableEq, Repr

end Sys2Proof
end

