-- ==== Sys2Proof/Config.lean ====
section
/-! DEFINITION. The configuration record CFG (00_scope.md R7), the two reference configurations
(R10), and the two free values: the bits of slots never written, and the order of coincident
events. -/

namespace Sys2Proof

/-- A closed window of tick counts, both bounds inclusive (00_scope.md R7, 30_encoding.md R56). -/
structure Window where
  min : Nat
  max : Nat
  deriving DecidableEq, Repr

/-- VARIANT: which validation the Frame Decoder applies (00_scope.md R11). -/
inductive Variant where
  | full
  | cmdCheck
  | light
  deriving DecidableEq, Repr

/-- CFG: the constants fixed before reset and never changed (00_scope.md R7, 20_memory.md R50).
COINCIDENT_ORDER is the free value `Config.coincidentOrder` below. -/
structure Cfg where
  /-- start-mark window, used in AwaitingStartLow -/
  sm : Window
  /-- start-gap window, used in AwaitingFirstBitGap -/
  sg : Window
  /-- bit-mark window, used in AwaitingBitMark -/
  bm : Window
  /-- bit-space window for logic 0, used in AwaitingBitSpace -/
  s0 : Window
  /-- bit-space window for logic 1, used in AwaitingBitSpace -/
  s1 : Window
  /-- TICK_CEILING: the largest value TickCount may hold -/
  tickCeiling : Nat
  /-- TICK_W: the width of TickCount in bits -/
  tickW : Nat
  /-- VARIANT -/
  variant : Variant
  /-- T_TICK in nanoseconds; informative, read by no rule (00_scope.md R7, R9; log entry 15) -/
  tTick : Nat
  deriving DecidableEq, Repr

/-- CFG_US: one tick stands for 1 us (00_scope.md R10). -/
def Cfg.us : Cfg where
  sm := ⟨6750, 11250⟩
  sg := ⟨3375, 5625⟩
  bm := ⟨420, 700⟩
  s0 := ⟨420, 700⟩
  s1 := ⟨1260, 2110⟩
  tickCeiling := 12000
  tickW := 14
  variant := .full
  tTick := 1000

/-- CFG_50: one tick stands for 50 us (00_scope.md R10). -/
def Cfg.fifty : Cfg where
  sm := ⟨135, 225⟩
  sg := ⟨68, 112⟩
  bm := ⟨8, 14⟩
  s0 := ⟨8, 14⟩
  s1 := ⟨25, 42⟩
  tickCeiling := 240
  tickW := 8
  variant := .full
  tTick := 50000

/-- FREE VALUE: the bit that slot `slot` of FrameBuffer holds from power-up number `run` until an
EDGE writes it; "arbitrary bits that differ from run to run" (10_state.md R22, U1; log entry 7). -/
opaque Config.powerUpBit (run slot : Nat) : Bool

/-- FREE VALUE: COINCIDENT_ORDER. Which of the requests that coincide is taken first at the `n`th
coincidence, counted modulo the number of requests left (30_encoding.md R62, 60_exceptions.md
R118, U10; log entry 9). -/
opaque Config.coincidentOrder (n : Nat) : Nat

end Sys2Proof
end

