-- ==== Sys2Proof/Syntax.lean ====
section
/-! DEFINITION. The 20 rows of the dispatch table as one inductive (30_encoding.md R64). No
operation has an explicit operand (R54). -/

namespace Sys2Proof

/-- One operation in one dispatch class: the block's "instructions" (00_scope.md R4,
30_encoding.md R64). -/
inductive Instr where
  /-- TICK.IDLE, 40_tick_source.md R74 -/
  | tickIdle
  /-- TICK.START_LOW, 40_tick_source.md R75 -/
  | tickStartLow
  /-- TICK.FIRST_GAP, 40_tick_source.md R75 -/
  | tickFirstGap
  /-- TICK.BIT_MARK, 40_tick_source.md R75 -/
  | tickBitMark
  /-- TICK.BIT_SPACE, 40_tick_source.md R75 -/
  | tickBitSpace
  /-- EDGE.MASKED, 41_frame_fsm.md R83 -/
  | edgeMasked
  /-- EDGE.IDLE, 41_frame_fsm.md R84 -/
  | edgeIdle
  /-- EDGE.START_LOW, 41_frame_fsm.md R85 -/
  | edgeStartLow
  /-- EDGE.FIRST_GAP, 41_frame_fsm.md R86 -/
  | edgeFirstGap
  /-- EDGE.BIT_MARK, 41_frame_fsm.md R87 -/
  | edgeBitMark
  /-- EDGE.BIT_SPACE, 41_frame_fsm.md R88 -/
  | edgeBitSpace
  /-- RECV.EMPTY, 42_frame_decoder.md R99 -/
  | recvEmpty
  /-- RECV.READY, 42_frame_decoder.md R103 -/
  | recvReady
  /-- RESET, 70_reset_and_hazards.md R131 -/
  | reset
  /-- RSVD.TICK.S5, 30_encoding.md R61 -/
  | rsvdTickS5
  /-- RSVD.TICK.S6, 30_encoding.md R61 -/
  | rsvdTickS6
  /-- RSVD.TICK.S7, 30_encoding.md R61 -/
  | rsvdTickS7
  /-- RSVD.EDGE.S5, 30_encoding.md R61 -/
  | rsvdEdgeS5
  /-- RSVD.EDGE.S6, 30_encoding.md R61 -/
  | rsvdEdgeS6
  /-- RSVD.EDGE.S7, 30_encoding.md R61 -/
  | rsvdEdgeS7
  deriving DecidableEq, Repr

end Sys2Proof
end

