-- ==== Sys2Proof/WellFormed.lean ====
section
/-! DEFINITION. Well-formedness: of a configuration (00_scope.md R8), and of an instruction (a row
that names no reserved state code, 30_encoding.md R61). -/

namespace Sys2Proof

/-- R8(a) for one window: `1 <= X_MIN <= X_MAX`. -/
def Window.wf (w : Window) : Bool :=
  decide (1 ≤ w.min) && decide (w.min ≤ w.max)

/-- R8(a): every window has a lower bound of at least 1 and is not empty. -/
def Cfg.windowsWf (c : Cfg) : Bool :=
  c.sm.wf && c.sg.wf && c.bm.wf && c.s0.wf && c.s1.wf

/-- R8(b): `S0_MAX < S1_MIN`, the two bit-space windows do not overlap. -/
def Cfg.spacesDisjoint (c : Cfg) : Bool :=
  decide (c.s0.max < c.s1.min)

/-- R8(c): every window can be reached before the timeout fires. -/
def Cfg.ceilingCovers (c : Cfg) : Bool :=
  decide (c.sm.max ≤ c.tickCeiling) && decide (c.sg.max ≤ c.tickCeiling) &&
    decide (c.bm.max ≤ c.tickCeiling) && decide (c.s0.max ≤ c.tickCeiling) &&
    decide (c.s1.max ≤ c.tickCeiling)

/-- R8(d): `TICK_CEILING < 2^TICK_W`, TickCount never wraps. -/
def Cfg.ceilingFits (c : Cfg) : Bool :=
  decide (c.tickCeiling < 2 ^ c.tickW)

/-- CFG is well formed (00_scope.md R8). Part (e), VARIANT is one of three values, holds by type. -/
def Cfg.wf (c : Cfg) : Bool :=
  c.windowsWf && c.spacesDisjoint && c.ceilingCovers && c.ceilingFits

/-- The rows with a reserved state code name no state and are refused (30_encoding.md R61); every
other row is well formed. -/
def Instr.wf : Instr → Bool
  | .rsvdTickS5 | .rsvdTickS6 | .rsvdTickS7 | .rsvdEdgeS5 | .rsvdEdgeS6 | .rsvdEdgeS7 => false
  | .tickIdle | .tickStartLow | .tickFirstGap | .tickBitMark | .tickBitSpace => true
  | .edgeMasked | .edgeIdle | .edgeStartLow | .edgeFirstGap | .edgeBitMark | .edgeBitSpace => true
  | .recvEmpty | .recvReady | .reset => true

end Sys2Proof
end

