-- ==== Sys2Proof/Decode.lean ====
section
/-! DEFINITION. The dispatch word: its fields and codes (30_encoding.md R59, R60, R64), the decoder
by case analysis on the fields, the opcode table's match and mask of every row, and the encoder
written from that table. -/

namespace Sys2Proof

/-! ## Codes (R59, R60) -/

/-- The event codes (R59). -/
def Event.code : Event → BitVec 2
  | .tick => 0b00#2
  | .edge => 0b01#2
  | .tryReceive => 0b10#2
  | .reset => 0b11#2

/-- The event a 2-bit code names (R59); every code names one (R69). -/
def Event.ofCode (c : BitVec 2) : Event :=
  match c.toNat with
  | 0 => .tick
  | 1 => .edge
  | 2 => .tryReceive
  | _ => .reset

/-- The 3-bit code of a DecodeState register (R60, R61). -/
def StateReg.code : StateReg → BitVec 3
  | .named .idle => 0b000#3
  | .named .awaitingStartLow => 0b001#3
  | .named .awaitingFirstBitGap => 0b010#3
  | .named .awaitingBitMark => 0b011#3
  | .named .awaitingBitSpace => 0b100#3
  | .reserved .s5 => 0b101#3
  | .reserved .s6 => 0b110#3
  | .reserved .s7 => 0b111#3

/-- The register contents a 3-bit code stands for (R60, R61). -/
def StateReg.ofCode (c : BitVec 3) : StateReg :=
  match c.toNat with
  | 0 => .named .idle
  | 1 => .named .awaitingStartLow
  | 2 => .named .awaitingFirstBitGap
  | 3 => .named .awaitingBitMark
  | 4 => .named .awaitingBitSpace
  | 5 => .reserved .s5
  | 6 => .reserved .s6
  | _ => .reserved .s7

/-! ## Fields of the dispatch word (R64) -/

/-- `W[6:5]`, the event. -/
def wordEvent (w : DispatchWord) : Event := Event.ofCode (w.extractLsb' 5 2)

/-- `W[4]`, EdgeArmed. -/
def wordArmed (w : DispatchWord) : Bool := w.getLsbD 4

/-- `W[3]`, FrameReady. -/
def wordReady (w : DispatchWord) : Bool := w.getLsbD 3

/-- `W[2:0]`, the DecodeState code. -/
def wordState (w : DispatchWord) : StateReg := StateReg.ofCode (w.extractLsb' 0 3)

/-- The dispatch word `{ev, armed, ready, state}` of four field values (R64). -/
def packWord (ev : Event) (armed ready : Bool) (st : StateReg) : DispatchWord :=
  ev.code ++ (BitVec.ofBool armed ++ (BitVec.ofBool ready ++ st.code))

/-! ## The decoder (R64) -/

/-- The class of a TICK: by DecodeState only (R64). -/
def decodeTick : StateReg → Instr
  | .named .idle => .tickIdle
  | .named .awaitingStartLow => .tickStartLow
  | .named .awaitingFirstBitGap => .tickFirstGap
  | .named .awaitingBitMark => .tickBitMark
  | .named .awaitingBitSpace => .tickBitSpace
  | .reserved .s5 => .rsvdTickS5
  | .reserved .s6 => .rsvdTickS6
  | .reserved .s7 => .rsvdTickS7

/-- The class of an EDGE with EdgeArmed = 1: by DecodeState (R64). -/
def decodeArmedEdge : StateReg → Instr
  | .named .idle => .edgeIdle
  | .named .awaitingStartLow => .edgeStartLow
  | .named .awaitingFirstBitGap => .edgeFirstGap
  | .named .awaitingBitMark => .edgeBitMark
  | .named .awaitingBitSpace => .edgeBitSpace
  | .reserved .s5 => .rsvdEdgeS5
  | .reserved .s6 => .rsvdEdgeS6
  | .reserved .s7 => .rsvdEdgeS7

/-- The dispatch class of an event in a context: TICK depends on DecodeState only, EDGE on EdgeArmed
and DecodeState, TRY_RECEIVE on FrameReady only, RESET on nothing (R64). -/
def dispatchClass (ev : Event) (armed ready : Bool) (st : StateReg) : Instr :=
  match ev with
  | .tick => decodeTick st
  | .edge => if armed then decodeArmedEdge st else .edgeMasked
  | .tryReceive => if ready then .recvReady else .recvEmpty
  | .reset => .reset

/-- The row of a dispatch word: total, since each of the 128 words matches one row (R65). -/
def decode (w : DispatchWord) : Instr :=
  dispatchClass (wordEvent w) (wordArmed w) (wordReady w) (wordState w)

/-- Why bytes are no dispatch word. -/
inductive DecodeError where
  /-- there is no byte -/
  | noByte
  /-- the byte has bit 7 set: a dispatch word has 7 bits (R64) -/
  | notADispatchWord (b : Byte)
  deriving DecidableEq, Repr

/-- The decoder on bytes: one byte a word, the word in its low 7 bits (log entry 17); the rest of
the bytes is handed back. -/
def decodeBytes : List Byte → Except DecodeError (Instr × List Byte)
  | [] => .error .noByte
  | b :: rest =>
    if b.getLsbD 7 then .error (.notADispatchWord b) else .ok (decode (b.setWidth 7), rest)

/-- The bytes of a word of `nbits` bits, the first at the lowest address, least significant first. -/
def wordBytes (nbits w : Nat) : List Byte :=
  (List.range ((nbits + 7) / 8)).map fun k => BitVec.ofNat 8 (w / 256 ^ k)

/-- The instruction the decoder reads from a word numbered as spec/opcode_table.json numbers it. -/
def decodeTableWord (nbits w : Nat) : Option Instr :=
  match decodeBytes (wordBytes nbits w) with
  | .ok (i, _) => some i
  | .error _ => none

/-! ## The opcode table (R64) and the encoder -/

/-- `match` of the row (R64). -/
def Instr.opMatch : Instr → DispatchWord
  | .tickIdle => 0x00#7
  | .tickStartLow => 0x01#7
  | .tickFirstGap => 0x02#7
  | .tickBitMark => 0x03#7
  | .tickBitSpace => 0x04#7
  | .edgeMasked => 0x20#7
  | .edgeIdle => 0x30#7
  | .edgeStartLow => 0x31#7
  | .edgeFirstGap => 0x32#7
  | .edgeBitMark => 0x33#7
  | .edgeBitSpace => 0x34#7
  | .recvEmpty => 0x40#7
  | .recvReady => 0x48#7
  | .reset => 0x60#7
  | .rsvdTickS5 => 0x05#7
  | .rsvdTickS6 => 0x06#7
  | .rsvdTickS7 => 0x07#7
  | .rsvdEdgeS5 => 0x35#7
  | .rsvdEdgeS6 => 0x36#7
  | .rsvdEdgeS7 => 0x37#7

/-- `mask` of the row: the bits it tests (R64). -/
def Instr.opMask : Instr → DispatchWord
  | .tickIdle | .tickStartLow | .tickFirstGap | .tickBitMark | .tickBitSpace => 0x67#7
  | .edgeMasked => 0x70#7
  | .edgeIdle | .edgeStartLow | .edgeFirstGap | .edgeBitMark | .edgeBitSpace => 0x77#7
  | .recvEmpty | .recvReady => 0x68#7
  | .reset => 0x60#7
  | .rsvdTickS5 | .rsvdTickS6 | .rsvdTickS7 => 0x67#7
  | .rsvdEdgeS5 | .rsvdEdgeS6 | .rsvdEdgeS7 => 0x77#7

/-- The row handles the word: `(W AND mask) = match` (R64). -/
def Instr.handles (i : Instr) (w : DispatchWord) : Bool :=
  w &&& i.opMask == i.opMatch

/-- All rows of the table, in its order. -/
def Instr.all : List Instr :=
  [.tickIdle, .tickStartLow, .tickFirstGap, .tickBitMark, .tickBitSpace, .edgeMasked, .edgeIdle,
    .edgeStartLow, .edgeFirstGap, .edgeBitMark, .edgeBitSpace, .recvEmpty, .recvReady, .reset,
    .rsvdTickS5, .rsvdTickS6, .rsvdTickS7, .rsvdEdgeS5, .rsvdEdgeS6, .rsvdEdgeS7]

/-- The word of a row whose untested bits are those of `context` (R64: fields a row does not test
are don't-care; log entry 20). -/
def encode (i : Instr) (context : DispatchWord) : DispatchWord :=
  i.opMatch ||| (context &&& ~~~ i.opMask)

/-- The byte that `decodeBytes` reads the row from. -/
def encodeBytes (i : Instr) (context : DispatchWord) : List Byte :=
  [(encode i context).setWidth 8]

end Sys2Proof
end

