-- ==== Sys2Proof/Machine/State.lean ====
section
/-! DEFINITION. The state of the block (10_state.md), the requests of its environment, the response
of TRY_RECEIVE, the reasons a step can stop, and the state after reset (R22). -/

namespace Sys2Proof.Machine

/-- FrameBuffer: the slots written since power-up, each with its bit, addresses strictly rising and
below 32 (10_state.md R16, 20_memory.md R33; log entry 7). A slot that is not listed holds no
defined value. -/
abbrev Mem := List (Nat × Bool)

/-- The canonical form from address `lo` on: addresses at least `lo`, strictly rising, below 32. -/
def Mem.wfFrom (lo : Nat) : Mem → Bool
  | [] => true
  | (a, _) :: m => decide (lo ≤ a) && decide (a < 32) && Mem.wfFrom (a + 1) m

/-- The canonical form of the buffer. -/
abbrev Mem.wf (m : Mem) : Bool := Mem.wfFrom 0 m

/-- The request inputs of one time at which the environment asks for something: `rst`, `tick`,
`edge`, `rd` (30_encoding.md R63). More than one may be set (R62). -/
structure Strobes where
  rst : Bool
  tick : Bool
  edge : Bool
  rd : Bool
  deriving DecidableEq, Repr

/-- The response of TRY_RECEIVE (42_frame_decoder.md R98): `None`, `Some` of address and command
(variants FULL and CMD_CHECK), or `Some` of a command alone (variant LIGHT). -/
inductive Response where
  | noData
  | frame (address : BitVec 16) (command : Byte)
  | command (c : Byte)
  deriving DecidableEq, Repr

/-- The state: the six elements of 10_state.md, the constants CFG, and the model's own fields for
the environment's requests, the response, and the two free values' arguments. -/
structure State where
  /-- CFG (00_scope.md R7); no operation writes it (20_memory.md R50) -/
  cfg : Cfg
  /-- DecodeState (10_state.md R13) -/
  decodeState : StateReg
  /-- TickCount (10_state.md R14); a natural number by U7 -/
  tickCount : Nat
  /-- BitIndex (10_state.md R15) -/
  bitIndex : SlotIdx
  /-- FrameBuffer (10_state.md R16) -/
  frameBuffer : Mem
  /-- FrameReady (10_state.md R17) -/
  frameReady : Bool
  /-- EdgeArmed (10_state.md R18) -/
  edgeArmed : Bool
  /-- MODEL'S OWN: what the environment has yet to request, oldest first (log entry 1) -/
  inputs : List Strobes
  /-- MODEL'S OWN: the response given in the event just taken (log entry 11) -/
  response : Option Response
  /-- MODEL'S OWN: how many coincidences have been resolved (log entry 9) -/
  picks : Nat
  /-- MODEL'S OWN: which power-up this run comes from (log entry 8) -/
  powerUp : Nat
  deriving DecidableEq, Repr

/-- Faults: none. "No condition in this core is fatal" (60_exceptions.md R111), so no step of this
machine ends in a fault; raised by nothing, hence safe. -/
inductive Fault where
  deriving DecidableEq, Repr

/-- Why a step stops without a meaning. -/
inductive Refusal where
  /-- an instruction without a meaning, named by its mnemonic; raised by an arm of `exec` only, and
  by none of this model; safe -/
  | notModelled (mnemonic : String)
  /-- DecodeState holds a code that names no state (30_encoding.md R61, treatment `refuse`); raised
  by the six RSVD rows; safe -/
  | reservedStateCode (c : ReservedCode)
  /-- CFG is not well formed (00_scope.md R8, U9, treatment `refuse`); raised by `step`; safe -/
  | illFormedConfig
  deriving DecidableEq, Repr

/-- The state after reset (10_state.md R22) in a given configuration and power-up: Idle, counters 0,
no frame ready, edge source armed, no slot of the buffer with a defined value. -/
def State.resetWith (cfg : Cfg) (powerUp : Nat) : State where
  cfg := cfg
  decodeState := .named .idle
  tickCount := 0
  bitIndex := 0
  frameBuffer := []
  frameReady := false
  edgeArmed := true
  inputs := []
  response := none
  picks := 0
  powerUp := powerUp

/-- The machine right after reset. The spec fixes no CFG: CFG_50 is a DESIGN CHOICE (log entry 5),
and so is power-up number 0 (log entry 8); no statement rests on either. -/
def State.reset : State := State.resetWith Cfg.fifty 0

end Sys2Proof.Machine
end

