-- ==== Sys2Proof/Machine/Flags.lean ====
section
/-! DEFINITION. The tests and derived flags: the window test, the decoder's checks, TimerRun. -/

namespace Sys2Proof.Machine

/-- `inw(e, X)`: both comparisons unsigned, both bounds inclusive (30_encoding.md R56). -/
def inw (e : Nat) (w : Window) : Bool :=
  decide (w.min ≤ e) && decide (e ≤ w.max)

/-- The timeout test of a TICK: one more tick would exceed the ceiling (40_tick_source.md R75). -/
def atCeiling (s : State) : Bool :=
  decide (s.cfg.tickCeiling ≤ s.tickCount)

/-- `TimerRun = (DecodeState != Idle)`, derived and not stored (10_state.md R19). -/
def timerRun (s : State) : Bool :=
  decide (s.decodeState ≠ .named .idle)

/-- `cmd_ok = (B2 + B3 = 255)`, an integer sum without wrap (42_frame_decoder.md R101). -/
def cmdOk (b2 b3 : Byte) : Bool :=
  decide (b2.toNat + b3.toNat = 255)

/-- `sum_ok = (B0 + B1 + B2 + B3 = 510)`, an integer sum without wrap (42_frame_decoder.md R102). -/
def sumOk (b0 b1 b2 b3 : Byte) : Bool :=
  decide (b0.toNat + b1.toNat + b2.toNat + b3.toNat = 510)

end Sys2Proof.Machine
end

