-- ==== Sys2Proof/Machine/Operands.lean ====
section
/-! DEFINITION. The implicit operands (30_encoding.md R54): the elapsed count and its class, the
slots of the buffer, its bytes and its word, and the composed result. -/

namespace Sys2Proof.Machine

/-- What a bit space spells (41_frame_fsm.md R89). -/
inductive SpaceClass where
  | bit (b : Bool)
  | violation
  deriving DecidableEq, Repr

/-- `classify_space(e)`: S0 spells 0, S1 spells 1, anything else is a violation (41_frame_fsm.md
R89). -/
def classifySpace (c : Cfg) (e : Nat) : SpaceClass :=
  if inw e c.s0 then .bit false
  else if inw e c.s1 then .bit true
  else .violation

/-- The bit listed for a slot, or none where no EDGE has written it since power-up. -/
def Mem.read? : Mem → Nat → Option Bool
  | [], _ => none
  | (k, b) :: m, a => if k = a then some b else Mem.read? m a

/-- The list with slot `a` holding `b`, kept in order. -/
def Mem.write : Mem → Nat → Bool → Mem
  | [], a, b => [(a, b)]
  | (k, v) :: m, a, b =>
    if a < k then (a, b) :: (k, v) :: m
    else if a = k then (a, b) :: m
    else (k, v) :: Mem.write m a b

/-- `FrameBuffer[i]`: the bit written there, or the free bit of a slot never written (10_state.md
R16, R22, U1). -/
def slot (s : State) (i : Nat) : Bool :=
  (Mem.read? s.frameBuffer i).getD (Config.powerUpBit s.powerUp i)

/-- The number whose bits are the list, least significant first (20_memory.md R35). -/
def bitsToNat : List Bool → Nat
  | [] => 0
  | b :: bs => b.toNat + 2 * bitsToNat bs

/-- The bits of slots `lo`, `lo + 1`, ..., `lo + n - 1`. -/
def slots (s : State) (lo n : Nat) : List Bool :=
  (List.range n).map fun i => slot s (lo + i)

/-- `BufRead()`, FrameWord: bit i is slot i (20_memory.md R37, R38). -/
def frameWord (s : State) : BitVec 32 :=
  BitVec.ofNat 32 (bitsToNat (slots s 0 32))

/-- `Byte(k)`: slots 8k to 8k + 7, least significant first (20_memory.md R39). -/
def byteAt (s : State) (k : Nat) : Byte :=
  BitVec.ofNat 8 (bitsToNat (slots s (8 * k) 8))

/-- `address = {B1, B0}` (42_frame_decoder.md R107). -/
def composeAddress (b0 b1 : Byte) : BitVec 16 := b1 ++ b0

/-- `result(VARIANT, B0, B1, B2, B3)` (42_frame_decoder.md R104, R105, R106). -/
def result (v : Variant) (b0 b1 b2 b3 : Byte) : Response :=
  match v with
  | .full =>
    if cmdOk b2 b3 && sumOk b0 b1 b2 b3 then .frame (composeAddress b0 b1) b2 else .noData
  | .cmdCheck => if cmdOk b2 b3 then .frame (composeAddress b0 b1) b2 else .noData
  | .light => .command b2

/-- The result for the frame in the buffer (42_frame_decoder.md R100, R103). -/
def bufferResult (s : State) : Response :=
  result s.cfg.variant (byteAt s 0) (byteAt s 1) (byteAt s 2) (byteAt s 3)

end Sys2Proof.Machine
end

