-- ==== Sys2Proof/Machine/Ops.lean ====
section
/-! DEFINITION. The named operations on the state that the meanings share: the buffer write, the
counter's read-and-reset, the two ends of a capture (`complete`, `abort`), and the bodies of the
rules that several rows use. -/

namespace Sys2Proof.Machine

/-- The cause passed to `abort`; not stored and not observable (41_frame_fsm.md R91,
60_exceptions.md R116). -/
inductive AbortCause where
  | violation
  | timeout
  deriving DecidableEq, Repr

/-- `BufWrite(i, b)`: slot i becomes b, every other slot is unchanged (20_memory.md R36). The bounds
check of 41_frame_fsm.md R92 holds by the type of the index. -/
def bufWrite (i : SlotIdx) (b : Bool) (s : State) : State :=
  { s with frameBuffer := Mem.write s.frameBuffer i.val b }

/-- `TickCount <- 0`, the clearing half of an armed EDGE's prelude (41_frame_fsm.md R82). -/
def clearTick (s : State) : State :=
  { s with tickCount := 0 }

/-- `DecodeState <- d`. -/
def goTo (d : DecodeState) (s : State) : State :=
  { s with decodeState := .named d }

/-- `abort(cause)`: what takes the place of taking an exception. The capture is discarded; nothing is
saved, nothing is reported, nothing else changes (41_frame_fsm.md R91, 60_exceptions.md R120). There
is no return operation (R121). -/
def abort (_cause : AbortCause) (s : State) : State :=
  { s with decodeState := .named .idle, bitIndex := 0, tickCount := 0 }

/-- `complete()`: the successful end of a capture (41_frame_fsm.md R90). -/
def complete (s : State) : State :=
  { s with
    frameReady := true
    edgeArmed := false
    decodeState := .named .idle
    bitIndex := 0
    tickCount := 0 }

/-- The body of TICK.RUN: time out at the ceiling, else count (40_tick_source.md R75). -/
def tickRun (s : State) : State :=
  if s.decodeState ≠ .named .idle then
    if atCeiling s then abort .timeout s else { s with tickCount := s.tickCount + 1 }
  else s

/-- The body of EDGE.START_LOW, EDGE.FIRST_GAP and EDGE.BIT_MARK: in state `here` read and clear the
count, then go on to `there` if it lies in the window, else abort (41_frame_fsm.md R82, R85 to R87). -/
def closeInterval (here : DecodeState) (w : Window) (there : DecodeState) (s : State) : State :=
  if s.edgeArmed = true ∧ s.decodeState = .named here then
    if inw s.tickCount w then goTo there (clearTick s) else abort .violation (clearTick s)
  else s

/-- Store a classified bit, then complete at slot 31 or go on to the next bit mark (41_frame_fsm.md
R88). -/
def storeBit (b : Bool) (s : State) : State :=
  if s.bitIndex = 31 then complete (bufWrite s.bitIndex b s)
  else goTo .awaitingBitMark { bufWrite s.bitIndex b s with bitIndex := s.bitIndex + 1 }

/-- The body of EDGE.BIT_SPACE: read and clear the count, classify it, store the bit or abort
(41_frame_fsm.md R88, R89). -/
def closeBitSpace (s : State) : State :=
  if s.edgeArmed = true ∧ s.decodeState = .named .awaitingBitSpace then
    match classifySpace s.cfg s.tickCount with
    | .violation => abort .violation (clearTick s)
    | .bit b => storeBit b (clearTick s)
  else s

/-- The body of EDGE.IDLE: the start of a capture (41_frame_fsm.md R84). -/
def startCapture (s : State) : State :=
  if s.edgeArmed = true ∧ s.decodeState = .named .idle then
    { s with tickCount := 0, bitIndex := 0, decodeState := .named .awaitingStartLow }
  else s

/-- The body of RECV.READY: answer, clear FrameReady, arm the edge source (42_frame_decoder.md
R103). -/
def consumeFrame (s : State) : State :=
  if s.frameReady = true then
    { s with frameReady := false, edgeArmed := true, response := some (bufferResult s) }
  else s

/-- The body of RECV.EMPTY: answer `None`, nothing changes (42_frame_decoder.md R99). -/
def answerEmpty (s : State) : State :=
  if s.frameReady = false then { s with response := some .noData } else s

/-- RESET: five elements to their reset values, the buffer not written (70_reset_and_hazards.md
R131). -/
def resetElements (s : State) : State :=
  { s with
    decodeState := .named .idle
    tickCount := 0
    bitIndex := 0
    frameReady := false
    edgeArmed := true }

end Sys2Proof.Machine
end

