-- ==== Sys2Proof/Machine/FrameDecoder.lean ====
section
/-! DEFINITION. The Frame Decoder: the two rows of TRY_RECEIVE (42_frame_decoder.md). -/

namespace Sys2Proof.Machine

/-- RECV.EMPTY: the answer is `None` and no state element changes (42_frame_decoder.md R99). -/
def execRecvEmpty (s : State) : Host.Outcome State Fault Refusal :=
  .next (answerEmpty s)

/-- RECV.READY: validate, answer, clear and re-arm (42_frame_decoder.md R103). -/
def execRecvReady (s : State) : Host.Outcome State Fault Refusal :=
  .next (consumeFrame s)

end Sys2Proof.Machine
end

