-- ==== Sys2Proof/Machine/FrameFsm.lean ====
section
/-! DEFINITION. The Frame State Machine: the six rows of EDGE (41_frame_fsm.md). -/

namespace Sys2Proof.Machine

/-- EDGE.MASKED: the edge is dropped; the count is neither latched nor cleared (41_frame_fsm.md
R83). -/
def execEdgeMasked (s : State) : Host.Outcome State Fault Refusal :=
  .next s

/-- EDGE.IDLE: the start of a capture (41_frame_fsm.md R84). -/
def execEdgeIdle (s : State) : Host.Outcome State Fault Refusal :=
  .next (startCapture s)

/-- EDGE.START_LOW: the end of the start mark (41_frame_fsm.md R85). -/
def execEdgeStartLow (s : State) : Host.Outcome State Fault Refusal :=
  .next (closeInterval .awaitingStartLow s.cfg.sm .awaitingFirstBitGap s)

/-- EDGE.FIRST_GAP: the end of the start gap (41_frame_fsm.md R86). -/
def execEdgeFirstGap (s : State) : Host.Outcome State Fault Refusal :=
  .next (closeInterval .awaitingFirstBitGap s.cfg.sg .awaitingBitMark s)

/-- EDGE.BIT_MARK: the end of a bit mark (41_frame_fsm.md R87). -/
def execEdgeBitMark (s : State) : Host.Outcome State Fault Refusal :=
  .next (closeInterval .awaitingBitMark s.cfg.bm .awaitingBitSpace s)

/-- EDGE.BIT_SPACE: the end of a bit space (41_frame_fsm.md R88). -/
def execEdgeBitSpace (s : State) : Host.Outcome State Fault Refusal :=
  .next (closeBitSpace s)

end Sys2Proof.Machine
end

