-- ==== Sys2Proof/Machine/System.lean ====
section
/-! DEFINITION. RESET (70_reset_and_hazards.md R131) and the six rows of the reserved state codes,
which a model refuses (30_encoding.md R61). -/

namespace Sys2Proof.Machine

/-- RESET: the reset values of 10_state.md R22; the buffer is not written (70_reset_and_hazards.md
R131). -/
def execReset (s : State) : Host.Outcome State Fault Refusal :=
  .next (resetElements s)

/-- RSVD.TICK.S5: code 5 names no state; refused (30_encoding.md R61). -/
def execRsvdTickS5 (_s : State) : Host.Outcome State Fault Refusal :=
  .refused (.reservedStateCode .s5)

/-- RSVD.TICK.S6: code 6 names no state; refused (30_encoding.md R61). -/
def execRsvdTickS6 (_s : State) : Host.Outcome State Fault Refusal :=
  .refused (.reservedStateCode .s6)

/-- RSVD.TICK.S7: code 7 names no state; refused (30_encoding.md R61). -/
def execRsvdTickS7 (_s : State) : Host.Outcome State Fault Refusal :=
  .refused (.reservedStateCode .s7)

/-- RSVD.EDGE.S5: code 5 names no state; refused (30_encoding.md R61). -/
def execRsvdEdgeS5 (_s : State) : Host.Outcome State Fault Refusal :=
  .refused (.reservedStateCode .s5)

/-- RSVD.EDGE.S6: code 6 names no state; refused (30_encoding.md R61). -/
def execRsvdEdgeS6 (_s : State) : Host.Outcome State Fault Refusal :=
  .refused (.reservedStateCode .s6)

/-- RSVD.EDGE.S7: code 7 names no state; refused (30_encoding.md R61). -/
def execRsvdEdgeS7 (_s : State) : Host.Outcome State Fault Refusal :=
  .refused (.reservedStateCode .s7)

end Sys2Proof.Machine
end

