-- ==== Sys2Proof/Machine/TickSource.lean ====
section
/-! DEFINITION. The Tick Source: the five rows of TICK (40_tick_source.md). -/

namespace Sys2Proof.Machine

/-- TICK.IDLE: no state element changes (40_tick_source.md R74). -/
def execTickIdle (s : State) : Host.Outcome State Fault Refusal :=
  .next s

/-- TICK.START_LOW (40_tick_source.md R75). -/
def execTickStartLow (s : State) : Host.Outcome State Fault Refusal :=
  .next (tickRun s)

/-- TICK.FIRST_GAP (40_tick_source.md R75). -/
def execTickFirstGap (s : State) : Host.Outcome State Fault Refusal :=
  .next (tickRun s)

/-- TICK.BIT_MARK (40_tick_source.md R75). -/
def execTickBitMark (s : State) : Host.Outcome State Fault Refusal :=
  .next (tickRun s)

/-- TICK.BIT_SPACE (40_tick_source.md R75). -/
def execTickBitSpace (s : State) : Host.Outcome State Fault Refusal :=
  .next (tickRun s)

end Sys2Proof.Machine
end

