-- ==== Sys2Proof/Machine/Dispatch.lean ====
section
/-! DEFINITION. One arm per row of the dispatch table (30_encoding.md R64). -/

namespace Sys2Proof.Machine

def exec (i : Instr) (s : State) : Host.Outcome State Fault Refusal :=
  match i with
  | .tickIdle => Sys2Proof.Machine.execTickIdle s
  | .tickStartLow => Sys2Proof.Machine.execTickStartLow s
  | .tickFirstGap => Sys2Proof.Machine.execTickFirstGap s
  | .tickBitMark => Sys2Proof.Machine.execTickBitMark s
  | .tickBitSpace => Sys2Proof.Machine.execTickBitSpace s
  | .edgeMasked => Sys2Proof.Machine.execEdgeMasked s
  | .edgeIdle => Sys2Proof.Machine.execEdgeIdle s
  | .edgeStartLow => Sys2Proof.Machine.execEdgeStartLow s
  | .edgeFirstGap => Sys2Proof.Machine.execEdgeFirstGap s
  | .edgeBitMark => Sys2Proof.Machine.execEdgeBitMark s
  | .edgeBitSpace => Sys2Proof.Machine.execEdgeBitSpace s
  | .recvEmpty => Sys2Proof.Machine.execRecvEmpty s
  | .recvReady => Sys2Proof.Machine.execRecvReady s
  | .reset => Sys2Proof.Machine.execReset s
  | .rsvdTickS5 => Sys2Proof.Machine.execRsvdTickS5 s
  | .rsvdTickS6 => Sys2Proof.Machine.execRsvdTickS6 s
  | .rsvdTickS7 => Sys2Proof.Machine.execRsvdTickS7 s
  | .rsvdEdgeS5 => Sys2Proof.Machine.execRsvdEdgeS5 s
  | .rsvdEdgeS6 => Sys2Proof.Machine.execRsvdEdgeS6 s
  | .rsvdEdgeS7 => Sys2Proof.Machine.execRsvdEdgeS7 s

end Sys2Proof.Machine
end

