-- ==== Sys2Proof/Machine/Requests.lean ====
section
/-! DEFINITION. How the environment's requests become events, one event a step: arrival order for
distinct times, every order admitted for coincident requests, RESET first (30_encoding.md R62,
60_exceptions.md R118), and the dispatch word of an event (R64). -/

namespace Sys2Proof.Machine

/-- No request at all. -/
def Strobes.quiet : Strobes := ⟨false, false, false, false⟩

/-- The strobes of one event alone. -/
def Strobes.only : Event → Strobes
  | .reset => { Strobes.quiet with rst := true }
  | .tick => { Strobes.quiet with tick := true }
  | .edge => { Strobes.quiet with edge := true }
  | .tryReceive => { Strobes.quiet with rd := true }

/-- The events requested beside RESET. -/
def Strobes.events (r : Strobes) : List Event :=
  (if r.tick then [.tick] else []) ++ (if r.edge then [.edge] else []) ++
    (if r.rd then [.tryReceive] else [])

/-- The requests left once `ev` has been taken. -/
def Strobes.drop (r : Strobes) : Event → Strobes
  | .reset => { r with rst := false }
  | .tick => { r with tick := false }
  | .edge => { r with edge := false }
  | .tryReceive => { r with rd := false }

/-- The response before an event runs: `None` for a TRY_RECEIVE that coincides with RESET and is
dropped by it (30_encoding.md R62), else none given yet. -/
def coincidentAnswer (r : Strobes) : Option Response :=
  if r.rst && r.rd then some .noData else none

/-- The next event and the state in which it is taken, its request removed from the inputs. RESET
wins over everything that coincides with it and the others are dropped (30_encoding.md R62); among
two or three other coincident requests the free value COINCIDENT_ORDER picks the first (R118; log
entry 9). None where nothing is requested at the head of the inputs. -/
def nextEvent (s : State) : Option (Event × State) :=
  match s.inputs with
  | [] => none
  | r :: rest =>
    if r.rst then
      some (.reset, { s with inputs := rest, response := coincidentAnswer r })
    else
      match r.events with
      | [] => none
      | [ev] => some (ev, { s with inputs := rest, response := none })
      | ev :: evs =>
        let pick := (ev :: evs).getD (Config.coincidentOrder s.picks % (evs.length + 1)) ev
        some (pick,
          { s with inputs := r.drop pick :: rest, response := none, picks := s.picks + 1 })

/-- Nothing is requested: no state element changes (00_scope.md R5, 70_reset_and_hazards.md R133);
a time without requests is passed over (log entry 1). -/
def passQuiet (s : State) : State :=
  { s with inputs := s.inputs.tail, response := none }

/-- The dispatch word of an event: all fields from the state before the event (30_encoding.md
R64). -/
def dispatchWord (ev : Event) (s : State) : DispatchWord :=
  packWord ev s.edgeArmed s.frameReady s.decodeState

/-- The state in which `w` is the dispatch word of the next event: EdgeArmed, FrameReady and
DecodeState as `w` has them, and its event the first request (log entry 3). -/
def presentWord (w : DispatchWord) (s : State) : State :=
  { s with
    edgeArmed := wordArmed w
    frameReady := wordReady w
    decodeState := wordState w
    inputs := Strobes.only (wordEvent w) :: s.inputs }

end Sys2Proof.Machine
end

