-- ==== Sys2Proof/Machine/Step.lean ====
section
/-! DEFINITION. One step: one event (20_memory.md R42, R45), handled by the row of its dispatch word
(30_encoding.md R64). -/

namespace Sys2Proof.Machine

/-- One step. An ill-formed CFG is refused (00_scope.md R8); without a request nothing happens; else
the next event runs as the row its dispatch word decodes to. -/
def step (s : State) : Host.Outcome State Fault Refusal :=
  if s.cfg.wf then
    match nextEvent s with
    | none => .next (passQuiet s)
    | some (ev, s') => exec (decode (dispatchWord ev s')) s'
  else .refused .illFormedConfig

/-- `s` with the word `w` of `nbits` bits presented as its next event's dispatch word, so that `step`
runs exactly its row (log entries 2, 3). A number that is no dispatch word changes nothing. -/
def State.withFetchWord (s : State) (nbits w : Nat) : State :=
  match decodeTableWord nbits w with
  | some _ => presentWord (BitVec.ofNat 7 w) s
  | none => s

end Sys2Proof.Machine
end

