-- ==== Sys2Proof/Machine/Outputs.lean ====
section
/-! DEFINITION. The outputs (30_encoding.md R63, 42_frame_decoder.md R108): functions of the state and
of the response; a wire the spec leaves unspecified has no value. -/

namespace Sys2Proof.Machine

/-- `frame_ready` = FrameReady. Polling it has no side effect (20_memory.md R43). -/
def outFrameReady (s : State) : Bool := s.frameReady

/-- `edge_arm` = EdgeArmed; the platform's arm/disarm primitive follows it (60_exceptions.md R124). -/
def outEdgeArm (s : State) : Bool := s.edgeArmed

/-- `timer_run` = TimerRun; the platform's timer start/stop primitive follows it (R124). -/
def outTimerRun (s : State) : Bool := timerRun s

/-- `rd_valid`: 1 for `Some`, 0 for `None` (42_frame_decoder.md R108). -/
def Response.rdValid : Response → Bool
  | .noData => false
  | .frame _ _ => true
  | .command _ => true

/-- `rd_address`: specified only with an address in the response (42_frame_decoder.md R108). -/
def Response.rdAddress : Response → Option (BitVec 16)
  | .noData => none
  | .frame a _ => some a
  | .command _ => none

/-- `rd_command`: specified only when `rd_valid = 1` (42_frame_decoder.md R108). -/
def Response.rdCommand : Response → Option Byte
  | .noData => none
  | .frame _ c => some c
  | .command c => some c

end Sys2Proof.Machine
end

