-- ==== Sys2Proof/Machine/Conditions.lean ====
section
/-! DEFINITION. The four conditions of 60_exceptions.md R111, as a function of the row and the state
before the event. They are labels for claims: no rule reads them and no state holds them (R116). -/

namespace Sys2Proof.Machine

/-- The document's error taxonomy (60_exceptions.md R111). -/
inductive Condition where
  | timingViolation
  | timeout
  | checksumMismatch
  | overwriteSuppression
  deriving DecidableEq, Repr

/-- The timing violation of a window test (60_exceptions.md R112). -/
def violationUnless (ok : Bool) : Option Condition :=
  if ok then none else some .timingViolation

/-- The timeout of a TICK during a capture (60_exceptions.md R113). -/
def timeoutCondition (s : State) : Option Condition :=
  if atCeiling s then some .timeout else none

/-- The checksum mismatch of RECV.READY, in the variants that check (60_exceptions.md R114). -/
def checksumCondition (s : State) : Option Condition :=
  if bufferResult s = .noData then some .checksumMismatch else none

/-- The condition a row raises when its event is taken in `s`; at most one (60_exceptions.md R119). -/
def condition (i : Instr) (s : State) : Option Condition :=
  match i with
  | .tickStartLow | .tickFirstGap | .tickBitMark | .tickBitSpace => timeoutCondition s
  | .edgeMasked => some .overwriteSuppression
  | .edgeStartLow => violationUnless (inw s.tickCount s.cfg.sm)
  | .edgeFirstGap => violationUnless (inw s.tickCount s.cfg.sg)
  | .edgeBitMark => violationUnless (inw s.tickCount s.cfg.bm)
  | .edgeBitSpace => violationUnless (inw s.tickCount s.cfg.s0 || inw s.tickCount s.cfg.s1)
  | .recvReady => checksumCondition s
  | .tickIdle | .edgeIdle | .recvEmpty | .reset => none
  | .rsvdTickS5 | .rsvdTickS6 | .rsvdTickS7 | .rsvdEdgeS5 | .rsvdEdgeS6 | .rsvdEdgeS7 => none

/-- The row that handles an event taken in `s` (30_encoding.md R64). -/
def rowOf (ev : Event) (s : State) : Instr := decode (dispatchWord ev s)

end Sys2Proof.Machine
end

