-- ==== Sys2Proof/Machine/Script.lean ====
section
/-! DEFINITION. The event-script notation (30_encoding.md R70 to R72): event sequences and the
macros built from them, and how a script reaches the block. -/

namespace Sys2Proof.Machine

/-- A script: primitive items, executed left to right, each one event (30_encoding.md R70). -/
abbrev Script := List Event

/-- `T*n` (30_encoding.md R70). -/
def ticks (n : Nat) : Script := List.replicate n .tick

/-- `IV(n)` = `T*n E` (30_encoding.md R71). -/
def iv (n : Nat) : Script := ticks n ++ [.edge]

/-- `START(a, b)` = `E IV(a) IV(b)` (30_encoding.md R71). -/
def start (a b : Nat) : Script := [.edge] ++ iv a ++ iv b

/-- `BIT(m, s)` = `IV(m) IV(s)` (30_encoding.md R71). -/
def bitScript (m s : Nat) : Script := iv m ++ iv s

/-- A start followed by bits given as pairs of a mark and a space, in ticks. -/
def captureScript (a b : Nat) (bits : List (Nat × Nat)) : Script :=
  start a b ++ bits.flatMap fun p => bitScript p.1 p.2

/-- The script constants A, G, M, Z, O (30_encoding.md R71). -/
structure ScriptConsts where
  /-- ticks of a nominal start mark -/
  a : Nat
  /-- ticks of a nominal start gap -/
  g : Nat
  /-- ticks of a nominal bit mark -/
  m : Nat
  /-- ticks of a logic-0 space -/
  z : Nat
  /-- ticks of a logic-1 space -/
  o : Nat
  deriving DecidableEq, Repr

/-- The constants for CFG_US (30_encoding.md R72). -/
def ScriptConsts.us : ScriptConsts := ⟨9000, 4500, 562, 562, 1687⟩

/-- The constants for CFG_50 (30_encoding.md R72). -/
def ScriptConsts.fifty : ScriptConsts := ⟨180, 90, 11, 11, 34⟩

/-- Each constant lies inside its window (30_encoding.md R72). -/
def ScriptConsts.fits (k : ScriptConsts) (c : Cfg) : Bool :=
  inw k.a c.sm && inw k.g c.sg && inw k.m c.bm && inw k.z c.s0 && inw k.o c.s1

/-- The mark and space of `BITV(b)` (30_encoding.md R71). -/
def ScriptConsts.bitv (k : ScriptConsts) (b : Bool) : Nat × Nat := (k.m, if b then k.o else k.z)

/-- The bits of a byte in the order of `BYTE(v)`: least significant first (30_encoding.md R71). -/
def byteBits (v : Byte) : List Bool := (List.range 8).map fun i => v.getLsbD i

/-- The 32 data bits of a frame in order of arrival (30_encoding.md R53). -/
def frameBits (b0 b1 b2 b3 : Byte) : List Bool :=
  byteBits b0 ++ byteBits b1 ++ byteBits b2 ++ byteBits b3

/-- `FRAME(b0, b1, b2, b3)` (30_encoding.md R71). -/
def frameScript (k : ScriptConsts) (b0 b1 b2 b3 : Byte) : Script :=
  captureScript k.a k.g ((frameBits b0 b1 b2 b3).map k.bitv)

/-- `NEC(a, c)` = `FRAME(a, ~a, c, ~c)` (30_encoding.md R71). -/
def necScript (k : ScriptConsts) (a c : Byte) : Script := frameScript k a (~~~a) c (~~~c)

/-- The script delivered as the next inputs, one event at a time. -/
def feed (es : Script) (s : State) : State :=
  { s with inputs := es.map Strobes.only ++ s.inputs }

/-- The script run: as many steps as it has events. -/
def runScript (es : Script) (s : State) : Host.Outcome State Fault Refusal :=
  Sys2Proof.core.run es.length (feed es s)

end Sys2Proof.Machine
end

