-- ==== Sys2Proof/Safety.lean ====
section
/-! DEFINITION. The invariants of every state reachable from reset (10_state.md R26 to R31), as
predicates on one state, and their conjunction. -/

namespace Sys2Proof.Machine

/-- The slots below `n` have been written since power-up. -/
def writtenBelow (n : Nat) (s : State) : Prop :=
  ∀ i < n, (Mem.read? s.frameBuffer i).isSome = true

/-- `EdgeArmed = NOT FrameReady` (10_state.md R26). -/
def armedIffNotReady (s : State) : Prop := s.edgeArmed = !s.frameReady

/-- `FrameReady = 1` implies `DecodeState = Idle` (10_state.md R27). -/
def readyImpliesIdle (s : State) : Prop :=
  s.frameReady = true → s.decodeState = .named .idle

/-- `DecodeState = Idle` implies `TickCount = 0 AND BitIndex = 0` (10_state.md R28). -/
def idleImpliesCleared (s : State) : Prop :=
  s.decodeState = .named .idle → s.tickCount = 0 ∧ s.bitIndex = 0

/-- `TickCount <= TICK_CEILING` (10_state.md R29). -/
def countBounded (s : State) : Prop := s.tickCount ≤ s.cfg.tickCeiling

/-- BitIndex is 0 before the first bit mark, and the slots below it have been written while bits are
being received (10_state.md R30). -/
def indexCountsBits (s : State) : Prop :=
  (s.decodeState = .named .awaitingStartLow ∨ s.decodeState = .named .awaitingFirstBitGap →
      s.bitIndex = 0) ∧
    (s.decodeState = .named .awaitingBitMark ∨ s.decodeState = .named .awaitingBitSpace →
      writtenBelow s.bitIndex.val s)

/-- While `FrameReady = 1` every slot has been written (10_state.md R31). -/
def readyImpliesFull (s : State) : Prop := s.frameReady = true → writtenBelow 32 s

/-- DecodeState holds one of its five values (10_state.md R13, 30_encoding.md R61). -/
def stateNamed (s : State) : Prop := ∃ d, s.decodeState = .named d

/-- What holds in every state reachable from reset. -/
structure Inv (s : State) : Prop where
  cfgWf : s.cfg.wf = true
  memWf : Mem.wf s.frameBuffer = true
  named : stateNamed s
  armed : armedIffNotReady s
  readyIdle : readyImpliesIdle s
  idleCleared : idleImpliesCleared s
  bounded : countBounded s
  index : indexCountsBits s
  readyFull : readyImpliesFull s

end Sys2Proof.Machine
end

