-- ==== Sys2Proof/Certificates/Slice0/Obligations.lean ====
section
/-! DEFINITION. The statements for the provers. Each is a rule of the spec, or follows from rules; its
docstring names them. `exec` results are stated as whole states, so that each is its own frame: the
fields not named are unchanged. -/

open Sys2Proof Sys2Proof.Machine

/-! ## Reset -/

/-- 70_reset_and_hazards.md R131: in every state RESET writes the five elements and leaves
FrameBuffer (and everything else) as it was; in the reset state it changes nothing. -/
def Obligations.ResetWritesFiveElements : Prop :=
  (∀ s : State, rowOf .reset s = .reset ∧
    exec .reset s = .next { s with
      decodeState := .named .idle
      tickCount := 0
      bitIndex := 0
      frameReady := false
      edgeArmed := true }) ∧
    ∀ (c : Cfg) (p : Nat), exec .reset (State.resetWith c p) = .next (State.resetWith c p)

/-- 10_state.md R22: the state after RESET, from any state and as a run starts; in the latter no slot
of FrameBuffer has a value. The CFG and the power-up number are left open. -/
def Obligations.StateAfterReset : Prop :=
  (∀ s : State, ∃ t, exec .reset s = .next t ∧ t.decodeState = .named .idle ∧ t.tickCount = 0 ∧
    t.bitIndex = 0 ∧ t.frameReady = false ∧ t.edgeArmed = true ∧ timerRun t = false ∧
    t.frameBuffer = s.frameBuffer) ∧
    (∀ (c : Cfg) (p : Nat), let s := State.resetWith c p
      s.decodeState = .named .idle ∧ s.tickCount = 0 ∧ s.bitIndex = 0 ∧ s.frameReady = false ∧
      s.edgeArmed = true ∧ timerRun s = false ∧ ∀ i, Mem.read? s.frameBuffer i = none)

/-- The invariant of `StepKeepsInvariants` holds in the reset state of every well-formed
configuration (10_state.md R22, R26 to R30), and `State.reset` is that state of one well-formed
configuration, which the model chose (log entries 5, 8). The buffer's canonical form, part of `Inv`,
is the model's choice (log entry 7). -/
def Obligations.ResetSatisfiesInvariants : Prop :=
  (∀ (c : Cfg) (p : Nat), c.wf = true → Inv (State.resetWith c p)) ∧ Inv State.reset ∧
    ∃ c p, c.wf = true ∧ State.reset = State.resetWith c p

/-! ## TICK -/

/-- 40_tick_source.md R74: a TICK in Idle is handled by TICK.IDLE and changes nothing, whatever
FrameReady, EdgeArmed and TickCount are. -/
def Obligations.TickInIdleChangesNothing : Prop :=
  ∀ s : State, s.decodeState = .named .idle →
    rowOf .tick s = .tickIdle ∧ exec .tickIdle s = .next s

/-- 40_tick_source.md R75: in each of the four other states a TICK is handled by that state's row; it
counts up below the ceiling, and at the ceiling it aborts. -/
def Obligations.TickCountsOrTimesOut : Prop :=
  ∀ (d : DecodeState) (i : Instr),
    (d, i) ∈ [(DecodeState.awaitingStartLow, Instr.tickStartLow),
      (.awaitingFirstBitGap, .tickFirstGap), (.awaitingBitMark, .tickBitMark),
      (.awaitingBitSpace, .tickBitSpace)] →
    ∀ s : State, s.decodeState = .named d →
      rowOf .tick s = i ∧
      (s.cfg.tickCeiling ≤ s.tickCount →
        exec i s = .next { s with decodeState := .named .idle, tickCount := 0, bitIndex := 0 }) ∧
      (s.tickCount < s.cfg.tickCeiling →
        exec i s = .next { s with tickCount := s.tickCount + 1 })

/-- 40_tick_source.md R76: n TICKs at once. (The response is the model's output of the last step; with
n = 0 there is no step.) -/
def Obligations.ManyTicksCountOrTimeOut : Prop :=
  ∀ (n : Nat) (s : State), s.cfg.wf = true → stateNamed s → timerRun s = true →
    s.tickCount ≤ s.cfg.tickCeiling →
    (s.tickCount + n ≤ s.cfg.tickCeiling →
      runScript (ticks n) s = .next { s with
        tickCount := s.tickCount + n
        response := if n = 0 then s.response else none }) ∧
    (s.cfg.tickCeiling < s.tickCount + n →
      runScript (ticks n) s = .next { s with
        decodeState := .named .idle
        tickCount := 0
        bitIndex := 0
        response := none })

/-- 40_tick_source.md R77 and 41_frame_fsm.md R96: the only arithmetic of TickCount is a guarded + 1
that stays within TICK_W bits, and the only arithmetic of BitIndex is + 1 below 31; both are
otherwise kept or cleared. -/
def Obligations.CountersNeverWrap : Prop :=
  ∀ (i : Instr) (s t : State), s.cfg.wf = true → countBounded s → exec i s = .next t →
    (t.tickCount = s.tickCount ∨ t.tickCount = 0 ∨
      (t.tickCount = s.tickCount + 1 ∧ s.tickCount < s.cfg.tickCeiling)) ∧
    t.tickCount < 2 ^ s.cfg.tickW ∧
    (t.bitIndex = s.bitIndex ∨ t.bitIndex = 0 ∨
      (t.bitIndex.val = s.bitIndex.val + 1 ∧ s.bitIndex.val < 31))

/-! ## EDGE -/

/-- 41_frame_fsm.md R83: an EDGE while EdgeArmed = 0 is dropped: nothing changes, the count is not
cleared, whatever DecodeState and FrameReady are. -/
def Obligations.MaskedEdgeIsDropped : Prop :=
  ∀ s : State, s.edgeArmed = false →
    rowOf .edge s = .edgeMasked ∧ exec .edgeMasked s = .next s

/-- 41_frame_fsm.md R84: an armed EDGE in Idle starts a capture; there is no test. -/
def Obligations.EdgeInIdleStartsCapture : Prop :=
  ∀ s : State, s.edgeArmed = true → s.decodeState = .named .idle →
    rowOf .edge s = .edgeIdle ∧
    exec .edgeIdle s = .next { s with
      tickCount := 0
      bitIndex := 0
      decodeState := .named .awaitingStartLow }

/-- 41_frame_fsm.md R85: the end of the start mark. -/
def Obligations.StartMarkAcceptedOrAborted : Prop :=
  ∀ s : State, s.edgeArmed = true → s.decodeState = .named .awaitingStartLow →
    rowOf .edge s = .edgeStartLow ∧
    (s.cfg.sm.min ≤ s.tickCount ∧ s.tickCount ≤ s.cfg.sm.max →
      exec .edgeStartLow s = .next { s with
        tickCount := 0
        decodeState := .named .awaitingFirstBitGap }) ∧
    (s.tickCount < s.cfg.sm.min ∨ s.cfg.sm.max < s.tickCount →
      exec .edgeStartLow s = .next { s with
        decodeState := .named .idle
        bitIndex := 0
        tickCount := 0 })

/-- 41_frame_fsm.md R86: the end of the start gap. -/
def Obligations.StartGapAcceptedOrAborted : Prop :=
  ∀ s : State, s.edgeArmed = true → s.decodeState = .named .awaitingFirstBitGap →
    rowOf .edge s = .edgeFirstGap ∧
    (s.cfg.sg.min ≤ s.tickCount ∧ s.tickCount ≤ s.cfg.sg.max →
      exec .edgeFirstGap s = .next { s with
        tickCount := 0
        decodeState := .named .awaitingBitMark }) ∧
    (s.tickCount < s.cfg.sg.min ∨ s.cfg.sg.max < s.tickCount →
      exec .edgeFirstGap s = .next { s with
        decodeState := .named .idle
        bitIndex := 0
        tickCount := 0 })

/-- 41_frame_fsm.md R87: the end of a bit mark; BitIndex is unchanged on success. -/
def Obligations.BitMarkAcceptedOrAborted : Prop :=
  ∀ s : State, s.edgeArmed = true → s.decodeState = .named .awaitingBitMark →
    rowOf .edge s = .edgeBitMark ∧
    (s.cfg.bm.min ≤ s.tickCount ∧ s.tickCount ≤ s.cfg.bm.max →
      exec .edgeBitMark s = .next { s with
        tickCount := 0
        decodeState := .named .awaitingBitSpace }) ∧
    (s.tickCount < s.cfg.bm.min ∨ s.cfg.bm.max < s.tickCount →
      exec .edgeBitMark s = .next { s with
        decodeState := .named .idle
        bitIndex := 0
        tickCount := 0 })

/-- 41_frame_fsm.md R88, with R89 (the classes) and R90 (`complete`): the end of a bit space. A count
in neither window aborts and writes no slot; a count in S0 stores 0, in S1 stores 1, in the slot
BitIndex and nowhere else; then the capture completes at 31 and otherwise goes on. -/
def Obligations.BitSpaceStoresBitOrAborts : Prop :=
  ∀ s : State, s.cfg.wf = true → s.edgeArmed = true →
    s.decodeState = .named .awaitingBitSpace →
    rowOf .edge s = .edgeBitSpace ∧
    (inw s.tickCount s.cfg.s0 = false ∧ inw s.tickCount s.cfg.s1 = false →
      exec .edgeBitSpace s = .next { s with
        decodeState := .named .idle
        bitIndex := 0
        tickCount := 0 }) ∧
    ∀ b : Bool,
      (inw s.tickCount s.cfg.s0 = true ∧ b = false ∨ inw s.tickCount s.cfg.s1 = true ∧ b = true) →
      ∃ m : Mem, Mem.read? m s.bitIndex.val = some b ∧
        (∀ a, a ≠ s.bitIndex.val → Mem.read? m a = Mem.read? s.frameBuffer a) ∧
        (s.bitIndex.val = 31 →
          exec .edgeBitSpace s = .next { s with
            frameBuffer := m
            frameReady := true
            edgeArmed := false
            decodeState := .named .idle
            bitIndex := 0
            tickCount := 0 }) ∧
        ∀ k : SlotIdx, k.val = s.bitIndex.val + 1 →
          exec .edgeBitSpace s = .next { s with
            frameBuffer := m
            bitIndex := k
            tickCount := 0
            decodeState := .named .awaitingBitMark }

/-- 41_frame_fsm.md R82: every armed EDGE clears TickCount, whatever the state and whatever else it
does; an EDGE that is not armed is EDGE.MASKED. -/
def Obligations.ArmedEdgeClearsTickCount : Prop :=
  ∀ s : State, stateNamed s →
    (s.edgeArmed = true → ∃ t, exec (rowOf .edge s) s = .next t ∧ t.tickCount = 0) ∧
    (s.edgeArmed = false → rowOf .edge s = .edgeMasked)

/-- 41_frame_fsm.md R91 and 60_exceptions.md R116: `abort` makes three writes and nothing else, and
its cause is stored nowhere. -/
def Obligations.AbortMakesThreeWrites : Prop :=
  ∀ (c : AbortCause) (s : State),
    abort c s = { s with decodeState := .named .idle, bitIndex := 0, tickCount := 0 }

/-! ## Windows and classes -/

/-- 30_encoding.md R56 and 41_frame_fsm.md R89: the window test with both bounds inclusive, and the
four regions of a bit space's count (five intervals) in a well-formed configuration. -/
def Obligations.WindowsClassifyEveryCount : Prop :=
  (∀ (e : Nat) (w : Window), inw e w = true ↔ w.min ≤ e ∧ e ≤ w.max) ∧
    (∀ (c : Cfg) (e : Nat), classifySpace c e =
      if inw e c.s0 = true then .bit false
      else if inw e c.s1 = true then .bit true else .violation) ∧
    ∀ (c : Cfg) (e : Nat), c.wf = true →
      (e < c.s0.min → classifySpace c e = .violation) ∧
      (c.s0.min ≤ e → e ≤ c.s0.max → classifySpace c e = .bit false) ∧
      (c.s0.max < e → e < c.s1.min → classifySpace c e = .violation) ∧
      (c.s1.min ≤ e → e ≤ c.s1.max → classifySpace c e = .bit true) ∧
      (c.s1.max < e → classifySpace c e = .violation)

/-! ## TRY_RECEIVE -/

/-- 42_frame_decoder.md R99: with nothing ready the answer is `None` and no state element changes. -/
def Obligations.ReceiveWithNothingReady : Prop :=
  ∀ s : State, s.frameReady = false →
    rowOf .tryReceive s = .recvEmpty ∧
    exec .recvEmpty s = .next { s with response := some .noData }

/-- 42_frame_decoder.md R103 with R104, R105, R106: with a frame ready, FrameReady is cleared and the
edge source armed in both outcomes, and the answer is the variant's. -/
def Obligations.ReceiveConsumesReadyFrame : Prop :=
  ∀ s : State, s.frameReady = true →
    rowOf .tryReceive s = .recvReady ∧
    exec .recvReady s = .next { s with
      frameReady := false
      edgeArmed := true
      response := some (
        match s.cfg.variant with
        | .full =>
          if (byteAt s 2).toNat + (byteAt s 3).toNat = 255 ∧
              (byteAt s 0).toNat + (byteAt s 1).toNat + (byteAt s 2).toNat +
                (byteAt s 3).toNat = 510 then
            .frame (byteAt s 1 ++ byteAt s 0) (byteAt s 2)
          else .noData
        | .cmdCheck =>
          if (byteAt s 2).toNat + (byteAt s 3).toNat = 255 then
            .frame (byteAt s 1 ++ byteAt s 0) (byteAt s 2)
          else .noData
        | .light => .command (byteAt s 2)) }

/-- 42_frame_decoder.md R101, R102, R104: the two checks as sums without wrap, what they force, and
that FULL accepts exactly the frames whose two byte pairs are complementary. -/
def Obligations.FullAcceptsExactlyComplements : Prop :=
  ∀ b0 b1 b2 b3 : Byte,
    (cmdOk b2 b3 = true ↔ b2.toNat + b3.toNat = 255) ∧
    (cmdOk b2 b3 = true ↔ b3 = ~~~ b2) ∧
    (sumOk b0 b1 b2 b3 = true ↔ b0.toNat + b1.toNat + b2.toNat + b3.toNat = 510) ∧
    (cmdOk b2 b3 = true → sumOk b0 b1 b2 b3 = true → b1 = ~~~ b0) ∧
    result .full b0 b1 b2 b3 =
      (if cmdOk b2 b3 = true ∧ sumOk b0 b1 b2 b3 = true then .frame (b1 ++ b0) b2 else .noData) ∧
    (b1 = ~~~ b0 ∧ b3 = ~~~ b2 → result .full b0 b1 b2 b3 = .frame (b1 ++ b0) b2) ∧
    (¬(b1 = ~~~ b0 ∧ b3 = ~~~ b2) → result .full b0 b1 b2 b3 = .noData)

/-- 42_frame_decoder.md R107: `address = B0 + 256 * B1`, address-high in the high half; the command is
B2; under FULL a returned address has complementary halves, under CMD_CHECK it is any value. -/
def Obligations.AddressIsHighLow : Prop :=
  (∀ b0 b1 : Byte,
    (composeAddress b0 b1).toNat = b0.toNat + 256 * b1.toNat ∧
    (composeAddress b0 b1).extractLsb' 8 8 = b1 ∧ (composeAddress b0 b1).extractLsb' 0 8 = b0) ∧
  (∀ (v : Variant) (b0 b1 b2 b3 : Byte) (a : BitVec 16) (c : Byte),
    result v b0 b1 b2 b3 = .frame a c → a = composeAddress b0 b1 ∧ c = b2) ∧
  ∀ (b0 b1 b2 b3 : Byte) (a : BitVec 16) (c : Byte),
    (result .full b0 b1 b2 b3 = .frame a c → a.extractLsb' 8 8 = ~~~ (a.extractLsb' 0 8)) ∧
    ∃ l h : Byte, result .cmdCheck l h c (~~~ c) = .frame a c

/-- 20_memory.md R38 and R39: bit i of FrameWord is slot i, `FrameWord = {B3, B2, B1, B0}`, and
`Byte(k) = FrameWord[8k+7 : 8k]`. -/
def Obligations.FrameWordIsLittleEndian : Prop :=
  ∀ s : State,
    (∀ i, i < 32 → (frameWord s).getLsbD i = slot s i) ∧
    frameWord s = byteAt s 3 ++ (byteAt s 2 ++ (byteAt s 1 ++ byteAt s 0)) ∧
    ∀ k, k < 4 → byteAt s k = (frameWord s).extractLsb' (8 * k) 8

/-- 30_encoding.md R63 and 42_frame_decoder.md R108: the outputs equal the named state; `rd_valid` is
1 for `Some`; `rd_command` is B2 and `rd_address` is `{B1, B0}` where they are specified, and have no
value elsewhere. -/
def Obligations.OutputsShowStateAndAnswer : Prop :=
  (∀ s : State, outFrameReady s = s.frameReady ∧ outEdgeArm s = s.edgeArmed ∧
    (outTimerRun s = true ↔ s.decodeState ≠ .named .idle)) ∧
  ∀ (v : Variant) (b0 b1 b2 b3 : Byte), let r := result v b0 b1 b2 b3
    (r.rdValid = false ↔ r = .noData) ∧
    (r.rdValid = true → r.rdCommand = some b2) ∧
    (r.rdValid = true → v ≠ .light → r.rdAddress = some (b1 ++ b0)) ∧
    (r.rdValid = false → r.rdCommand = none ∧ r.rdAddress = none) ∧
    (v = .light → r.rdValid = true ∧ r.rdAddress = none)

/-- 42_frame_decoder.md R109, first sentence, for two TRY_RECEIVE in a row; the state between and
after them is otherwise unchanged (20_memory.md R43). -/
def Obligations.SecondReceiveFindsNothing : Prop :=
  ∀ (s : State) (rest : List Strobes), s.cfg.wf = true → s.frameReady = true →
    s.inputs = Strobes.only .tryReceive :: Strobes.only .tryReceive :: rest →
    ∃ t, step s = .next t ∧
      t = { s with
        frameReady := false
        edgeArmed := true
        inputs := Strobes.only .tryReceive :: rest
        response := some (bufferResult s) } ∧
      step t = .next { t with inputs := rest, response := some .noData }

/-! ## Reserved codes, dispatch, encoding -/

/-- 30_encoding.md R61: the rows with a reserved state code are refused, in every state; they are the
rows of TICK and of an armed EDGE where DecodeState holds that code; no operation writes one. -/
def Obligations.ReservedCodesAreRefused : Prop :=
  (∀ (c : ReservedCode) (i j : Instr),
    (c, i, j) ∈ [(ReservedCode.s5, Instr.rsvdTickS5, Instr.rsvdEdgeS5),
      (.s6, .rsvdTickS6, .rsvdEdgeS6), (.s7, .rsvdTickS7, .rsvdEdgeS7)] →
    ∀ s : State,
      exec i s = .refused (.reservedStateCode c) ∧ exec j s = .refused (.reservedStateCode c) ∧
      (s.decodeState = .reserved c →
        rowOf .tick s = i ∧ (s.edgeArmed = true → rowOf .edge s = j))) ∧
    ∀ (i : Instr) (s t : State), exec i s = .next t →
      t.decodeState = s.decodeState ∨ stateNamed t

/-- 30_encoding.md R65: each of the 128 dispatch words matches exactly one of the 20 rows, and the
decoder gives that row. -/
def Obligations.EveryWordMatchesOneRow : Prop :=
  (∀ (w : DispatchWord) (i : Instr), i.handles w = true ↔ decode w = i) ∧
    Instr.all.length = 20 ∧ Instr.all.Nodup ∧ ∀ i : Instr, i ∈ Instr.all

/-- Decoding and encoding agree, on words and on bytes, with every untested bit at every value; no bit
of a word is dropped (30_encoding.md R64). -/
def Obligations.DecodeEncodeAgree : Prop :=
  (∀ (i : Instr) (context : DispatchWord), decode (encode i context) = i) ∧
  (∀ w : DispatchWord, encode (decode w) w = w) ∧
  ∀ (i : Instr) (context : DispatchWord) (rest : List Byte),
    decodeBytes (encodeBytes i context ++ rest) = .ok (i, rest)

/-- The dispatch words of 95_test_vectors.md section 6 (VD1 to VD14) decode to their rows. -/
def Obligations.WrittenOutWordsDecode : Prop :=
  decode 0b0000000#7 = .tickIdle ∧ decode 0b0001000#7 = .tickIdle ∧
  decode 0b0010011#7 = .tickBitMark ∧ decode 0b0110000#7 = .edgeIdle ∧
  decode 0b0110100#7 = .edgeBitSpace ∧ decode 0b0111100#7 = .edgeBitSpace ∧
  decode 0b0101000#7 = .edgeMasked ∧ decode 0b0100100#7 = .edgeMasked ∧
  decode 0b1010000#7 = .recvEmpty ∧ decode 0b1010011#7 = .recvEmpty ∧
  decode 0b1001000#7 = .recvReady ∧ decode 0b1111111#7 = .reset ∧
  decode 0b0110101#7 = .rsvdEdgeS5 ∧ decode 0b0000111#7 = .rsvdTickS7

/-- 30_encoding.md R64: the dispatch word of an event holds the event's code, EdgeArmed, FrameReady
and the DecodeState code, all from the state before the event, and the step runs the row whose
`(W AND mask) = match`. What the step adds: the request leaves the inputs and the last response is
no longer shown. -/
def Obligations.StepRunsDecodedRow : Prop :=
  ∀ (s : State) (ev : Event) (rest : List Strobes), s.cfg.wf = true →
    s.inputs = Strobes.only ev :: rest →
    (dispatchWord ev s).toNat = ev.code.toNat * 32 + s.edgeArmed.toNat * 16 +
      s.frameReady.toNat * 8 + s.decodeState.code.toNat ∧
    (decode (dispatchWord ev s)).handles (dispatchWord ev s) = true ∧
    step s = exec (decode (dispatchWord ev s)) { s with inputs := rest, response := none }

/-- A word presented as the next dispatch word is the one the next step runs (the model's
`withFetchWord`, log entries 2 and 3). -/
def Obligations.PresentedWordIsRun : Prop :=
  ∀ (s : State) (nbits w : Nat) (i : Instr), s.cfg.wf = true →
    decodeTableWord nbits w = some i →
    step (s.withFetchWord nbits w) = exec i { s with
      edgeArmed := wordArmed (BitVec.ofNat 7 w)
      frameReady := wordReady (BitVec.ofNat 7 w)
      decodeState := wordState (BitVec.ofNat 7 w)
      response := none }

/-! ## Requests -/

/-- 00_scope.md R8: what a well-formed CFG is (part (e) holds by type), and that an ill-formed one is
refused. -/
def Obligations.IllFormedConfigIsRefused : Prop :=
  (∀ c : Cfg, c.wf = true ↔
    (∀ w ∈ [c.sm, c.sg, c.bm, c.s0, c.s1], 1 ≤ w.min ∧ w.min ≤ w.max ∧ w.max ≤ c.tickCeiling) ∧
    c.s0.max < c.s1.min ∧ c.tickCeiling < 2 ^ c.tickW) ∧
  ∀ s : State, s.cfg.wf = false → step s = .refused .illFormedConfig

/-- Without a request the step changes no state element (00_scope.md R5, 70_reset_and_hazards.md
R133); that such a step exists is the model's choice (log entry 1). -/
def Obligations.NothingHappensWithoutRequest : Prop :=
  ∀ s : State, s.cfg.wf = true →
    (s.inputs = [] → step s = .next { s with response := none }) ∧
    ∀ rest, s.inputs = Strobes.quiet :: rest →
      step s = .next { s with inputs := rest, response := none }

/-- 30_encoding.md R62: coincident requests behave as if they had arrived one after another in some
order; RESET coinciding with anything wins and a coinciding TRY_RECEIVE returns `None`. (`picks` is
the model's count of coincidences, log entry 9.) -/
def Obligations.CoincidentRequestsAreSerialised : Prop :=
  ∀ (s : State) (r : Strobes) (rest : List Strobes), s.cfg.wf = true → s.inputs = r :: rest →
    (r.rst = true → step s = .next { s with
      decodeState := .named .idle
      tickCount := 0
      bitIndex := 0
      frameReady := false
      edgeArmed := true
      inputs := rest
      response := if r.rd then some .noData else none }) ∧
    (r.rst = false → r.events ≠ [] →
      ∃ es : List Event, es.Perm r.events ∧
        Sys2Proof.core.run es.length s = Sys2Proof.core.run es.length { s with
          inputs := es.map Strobes.only ++ rest
          picks := s.picks + (es.length - 1) })

/-- 00_scope.md R6: each operation is total: its row takes a next state in every combination of the
state elements, reachable or not; so a step never stops in a well-formed configuration whose
DecodeState has one of its five values, and it keeps such a value. -/
def Obligations.EveryOperationIsTotal : Prop :=
  (∀ (i : Instr) (s : State), i.wf = true → ∃ t, exec i s = .next t) ∧
  ∀ s : State, s.cfg.wf = true → stateNamed s →
    (∀ ev, (rowOf ev s).wf = true) ∧ ∃ t, step s = .next t ∧ stateNamed t

/-- 30_encoding.md R68: three dispatch classes change no state element, and every other class that
names a state changes one in some state that dispatches to it. -/
def Obligations.OnlyThreeNoOps : Prop :=
  (∀ s : State, (exec .tickIdle s = .next s) ∧ (exec .edgeMasked s = .next s) ∧
    ∃ r, exec .recvEmpty s = .next { s with response := r }) ∧
  ∀ i : Instr, i.wf = true → i ∉ [.tickIdle, .edgeMasked, .recvEmpty] →
    ∃ (ev : Event) (s t : State), rowOf ev s = i ∧ exec i s = .next t ∧
      (t.decodeState ≠ s.decodeState ∨ t.tickCount ≠ s.tickCount ∨ t.bitIndex ≠ s.bitIndex ∨
        t.frameReady ≠ s.frameReady ∨ t.edgeArmed ≠ s.edgeArmed)

/-! ## The whole machine -/

/-- 10_state.md R26, R27, R28, R29 (and the parts of R30 and R31 that are facts about one state): the
invariants are kept by every step. The buffer's canonical form, part of `Inv`, is the model's choice
(log entry 7). -/
def Obligations.StepKeepsInvariants : Prop :=
  ∀ s t : State, Inv s → step s = .next t → Inv t

/-- Derived from 10_state.md R26 to R31: the invariants hold in every state a run from reset reaches,
in every well-formed configuration, whatever is requested and however often; and every such run goes
on. The buffer's canonical form, part of `Inv`, is the model's choice (log entry 7). -/
def Obligations.RunsFromResetMeetInvariants : Prop :=
  ∀ (n : Nat) (c : Cfg) (p : Nat) (rs : List Strobes), c.wf = true →
    ∃ t, Sys2Proof.core.run n { State.resetWith c p with inputs := rs } = .next t ∧ Inv t

/-- 41_frame_fsm.md R95: the complete transition graph of DecodeState. -/
def Obligations.TransitionGraphOfDecodeState : Prop :=
  ∀ (ev : Event) (s t : State), exec (rowOf ev s) s = .next t →
    (ev = .reset → t.decodeState = .named .idle) ∧
    (ev = .tryReceive → t.decodeState = s.decodeState) ∧
    (ev = .edge → s.edgeArmed = false → t.decodeState = s.decodeState) ∧
    (ev = .tick → s.decodeState = .named .idle → t.decodeState = .named .idle) ∧
    (ev = .tick → s.decodeState ≠ .named .idle → s.tickCount < s.cfg.tickCeiling →
      t.decodeState = s.decodeState) ∧
    (ev = .tick → s.decodeState ≠ .named .idle → s.cfg.tickCeiling ≤ s.tickCount →
      t.decodeState = .named .idle) ∧
    (ev = .edge → s.edgeArmed = true →
      (s.decodeState = .named .idle → t.decodeState = .named .awaitingStartLow) ∧
      (s.decodeState = .named .awaitingStartLow → t.decodeState =
        if inw s.tickCount s.cfg.sm then .named .awaitingFirstBitGap else .named .idle) ∧
      (s.decodeState = .named .awaitingFirstBitGap → t.decodeState =
        if inw s.tickCount s.cfg.sg then .named .awaitingBitMark else .named .idle) ∧
      (s.decodeState = .named .awaitingBitMark → t.decodeState =
        if inw s.tickCount s.cfg.bm then .named .awaitingBitSpace else .named .idle) ∧
      (s.decodeState = .named .awaitingBitSpace →
        (inw s.tickCount s.cfg.s0 = false ∧ inw s.tickCount s.cfg.s1 = false →
          t.decodeState = .named .idle) ∧
        (inw s.tickCount s.cfg.s0 = true ∨ inw s.tickCount s.cfg.s1 = true →
          (s.bitIndex.val < 31 → t.decodeState = .named .awaitingBitMark) ∧
          (s.bitIndex.val = 31 → t.decodeState = .named .idle ∧ t.frameReady = true))))

/-- 10_state.md R23: which elements each operation writes. The response is the model's output (log
entry 11). -/
def Obligations.OperationsWriteOnlyTheirElements : Prop :=
  ∀ (ev : Event) (s t : State), exec (rowOf ev s) s = .next t →
    (ev = .tick → t = { s with
      tickCount := t.tickCount, decodeState := t.decodeState, bitIndex := t.bitIndex }) ∧
    (ev = .edge → t = { s with
      tickCount := t.tickCount, decodeState := t.decodeState, bitIndex := t.bitIndex,
      frameBuffer := t.frameBuffer, frameReady := t.frameReady, edgeArmed := t.edgeArmed }) ∧
    (ev = .tryReceive → t = { s with
      frameReady := t.frameReady, edgeArmed := t.edgeArmed, response := t.response }) ∧
    (ev = .reset → t = { s with
      tickCount := t.tickCount, decodeState := t.decodeState, bitIndex := t.bitIndex,
      frameReady := t.frameReady, edgeArmed := t.edgeArmed })

/-- 20_memory.md R50: CFG is constant for the life of the block, over any number of steps; so is the
power-up (log entry 8). -/
def Obligations.ConfigNeverChanges : Prop :=
  ∀ (n : Nat) (s t : State), Sys2Proof.core.run n s = .next t →
    t.cfg = s.cfg ∧ t.powerUp = s.powerUp

/-- 20_memory.md R36: `BufWrite` changes one slot and nothing else, and only EDGE.BIT_SPACE writes the
buffer, at the slot BitIndex. -/
def Obligations.OnlyBitSpaceWritesBuffer : Prop :=
  (∀ (i : SlotIdx) (b : Bool) (s : State),
    Mem.read? (bufWrite i b s).frameBuffer i.val = some b ∧
    (∀ a, a ≠ i.val → Mem.read? (bufWrite i b s).frameBuffer a = Mem.read? s.frameBuffer a) ∧
    bufWrite i b s = { s with frameBuffer := (bufWrite i b s).frameBuffer }) ∧
  ∀ (i : Instr) (s t : State), exec i s = .next t →
    (i ≠ .edgeBitSpace → t.frameBuffer = s.frameBuffer) ∧
    ∀ a, a ≠ s.bitIndex.val → Mem.read? t.frameBuffer a = Mem.read? s.frameBuffer a

/-- 10_state.md R17, R18: FrameReady is set only by the EDGE that writes the 32nd bit, which also
disarms; it is cleared only by a TRY_RECEIVE that finds it 1 and by RESET; EdgeArmed is set only by
those two and cleared only by that EDGE. -/
def Obligations.WhoSetsReadyAndArmed : Prop :=
  ∀ (ev : Event) (s t : State), exec (rowOf ev s) s = .next t →
    (s.frameReady = false → t.frameReady = true →
      ev = .edge ∧ s.edgeArmed = true ∧ s.decodeState = .named .awaitingBitSpace ∧
      s.bitIndex.val = 31 ∧ (inw s.tickCount s.cfg.s0 = true ∨ inw s.tickCount s.cfg.s1 = true) ∧
      t.edgeArmed = false) ∧
    (s.frameReady = true → t.frameReady = false → ev = .tryReceive ∨ ev = .reset) ∧
    (s.edgeArmed = true → t.edgeArmed = false → ev = .edge ∧ t.frameReady = true) ∧
    (s.edgeArmed = false → t.edgeArmed = true →
      (ev = .tryReceive ∧ s.frameReady = true) ∨ ev = .reset)

/-- 10_state.md R24 and R28: whenever a capture ends, TickCount and BitIndex become 0 in the same
event. -/
def Obligations.EndOfCaptureClearsCounters : Prop :=
  ∀ (i : Instr) (s t : State), exec i s = .next t → s.decodeState ≠ .named .idle →
    t.decodeState = .named .idle → t.tickCount = 0 ∧ t.bitIndex = 0

/-- 60_exceptions.md R112, R113, R114, R115: when each condition is raised and what it does. -/
def Obligations.ConditionsAndTheirEffects : Prop :=
  ∀ (ev : Event) (s : State), stateNamed s →
    (condition (rowOf ev s) s = some .timingViolation ↔
      ev = .edge ∧ s.edgeArmed = true ∧
      ((s.decodeState = .named .awaitingStartLow ∧ inw s.tickCount s.cfg.sm = false) ∨
        (s.decodeState = .named .awaitingFirstBitGap ∧ inw s.tickCount s.cfg.sg = false) ∨
        (s.decodeState = .named .awaitingBitMark ∧ inw s.tickCount s.cfg.bm = false) ∨
        (s.decodeState = .named .awaitingBitSpace ∧ inw s.tickCount s.cfg.s0 = false ∧
          inw s.tickCount s.cfg.s1 = false))) ∧
    (condition (rowOf ev s) s = some .timeout ↔
      ev = .tick ∧ s.decodeState ≠ .named .idle ∧ s.cfg.tickCeiling ≤ s.tickCount) ∧
    (condition (rowOf ev s) s = some .checksumMismatch ↔
      ev = .tryReceive ∧ s.frameReady = true ∧
      ((s.cfg.variant = .full ∧ (cmdOk (byteAt s 2) (byteAt s 3) &&
          sumOk (byteAt s 0) (byteAt s 1) (byteAt s 2) (byteAt s 3)) = false) ∨
        (s.cfg.variant = .cmdCheck ∧ cmdOk (byteAt s 2) (byteAt s 3) = false))) ∧
    (condition (rowOf ev s) s = some .overwriteSuppression ↔
      ev = .edge ∧ s.edgeArmed = false) ∧
    (condition (rowOf ev s) s = some .timingViolation ∨
        condition (rowOf ev s) s = some .timeout →
      exec (rowOf ev s) s = .next { s with
        decodeState := .named .idle
        bitIndex := 0
        tickCount := 0 }) ∧
    (condition (rowOf ev s) s = some .checksumMismatch →
      exec (rowOf ev s) s = .next { s with
        frameReady := false
        edgeArmed := true
        response := some .noData }) ∧
    (condition (rowOf ev s) s = some .overwriteSuppression →
      exec (rowOf ev s) s = .next s)

/-- 60_exceptions.md R120: the state after an abort is the state a fresh block would have, apart from
FrameBuffer: in every state that meets the invariants it is what RESET would leave. -/
def Obligations.AbortLeavesFreshBlock : Prop :=
  ∀ (ev : Event) (s : State), Inv s →
    (condition (rowOf ev s) s = some .timingViolation ∨
      condition (rowOf ev s) s = some .timeout) →
    exec (rowOf ev s) s = exec .reset s

/-- 20_memory.md R46(b), 70_reset_and_hazards.md R138: from completion on, as long as neither
TRY_RECEIVE nor RESET is requested, nothing changes over any number of steps: every edge is dropped,
the buffer is frozen, the frame does not expire. -/
def Obligations.UnreadFrameIsKept : Prop :=
  ∀ (n : Nat) (s : State), Inv s → s.frameReady = true →
    (∀ r ∈ s.inputs, r.rst = false ∧ r.rd = false) →
    ∃ t, Sys2Proof.core.run n s = .next t ∧
      t = { s with inputs := t.inputs, response := t.response, picks := t.picks }

/-- 10_state.md R22 and U1: the bits of slots never written are not observable: two runs from states
that meet the invariants and differ only in the power-up differ only in the power-up, responses
included. -/
def Obligations.UnwrittenSlotsAreNeverSeen : Prop :=
  ∀ (n p : Nat) (s t : State), Inv s → Sys2Proof.core.run n s = .next t →
    Sys2Proof.core.run n { s with powerUp := p } = .next { t with powerUp := p }

/-! ## Captures -/

/-- 41_frame_fsm.md R93, one direction with the contents: from Idle with the edge source armed, an
opening edge, a start mark and gap in their windows and 32 bits in theirs end with the frame ready
and the 32 bits in their slots in order of arrival. -/
def Obligations.WholeFrameIsCaptured : Prop :=
  ∀ (s : State) (a b : Nat) (marks : List (Nat × Nat)) (bits : List Bool),
    s.cfg.wf = true → s.decodeState = .named .idle → s.edgeArmed = true →
    inw a s.cfg.sm = true → inw b s.cfg.sg = true →
    marks.length = 32 → (∀ p ∈ marks, inw p.1 s.cfg.bm = true) →
    marks.map (fun p => classifySpace s.cfg p.2) = bits.map SpaceClass.bit →
    ∃ m : Mem, (∀ i, i < 32 → Mem.read? m i = bits[i]?) ∧
      runScript (captureScript a b marks) s = .next { s with
        frameBuffer := m
        frameReady := true
        edgeArmed := false
        tickCount := 0
        bitIndex := 0
        response := none }

/-- 41_frame_fsm.md R93: counting from an EDGE.IDLE, FrameReady becomes 1 at the 67th armed EDGE if
and only if the 66 intervals pass their tests in order, and never earlier; a timeout is an interval
longer than the ceiling. The slots then hold the 32 classified bits in order of arrival, and the 68th
edge is masked. Ticks and edges only: that a TRY_RECEIVE between them changes nothing is
`ReceiveWithNothingReady`. -/
def Obligations.ReadyExactlyAfter66Intervals : Prop :=
  ∀ (s : State) (xs : List Nat), s.cfg.wf = true → s.decodeState = .named .idle →
    s.edgeArmed = true → s.frameReady = false → xs.length ≤ 66 →
    ∃ t, runScript (.edge :: xs.flatMap iv) s = .next t ∧
      (t.frameReady = true ↔ xs.length = 66 ∧
        ∀ (k e : Nat), xs[k]? = some e →
          (k = 0 → inw e s.cfg.sm = true) ∧
          (k = 1 → inw e s.cfg.sg = true) ∧
          (2 ≤ k → k % 2 = 0 → inw e s.cfg.bm = true) ∧
          (2 ≤ k → k % 2 = 1 → inw e s.cfg.s0 = true ∨ inw e s.cfg.s1 = true)) ∧
      (t.frameReady = true → rowOf .edge t = .edgeMasked ∧
        ∀ (k e : Nat), k < 32 → xs[3 + 2 * k]? = some e →
          ∃ b, classifySpace s.cfg e = .bit b ∧ Mem.read? t.frameBuffer k = some b)

/-- 42_frame_decoder.md R109 and 95_test_vectors.md S1: a frame sent with script constants that lie in
their windows is answered by the first TRY_RECEIVE after it with the variant's result for its four
bytes, and by the second with nothing. -/
def Obligations.SentFrameIsDeliveredOnce : Prop :=
  ∀ (s : State) (k : ScriptConsts) (b0 b1 b2 b3 : Byte),
    s.cfg.wf = true → k.fits s.cfg = true → s.decodeState = .named .idle → s.edgeArmed = true →
    ∃ m : Mem,
      runScript (frameScript k b0 b1 b2 b3 ++ [.tryReceive]) s = .next { s with
        frameBuffer := m
        frameReady := false
        edgeArmed := true
        tickCount := 0
        bitIndex := 0
        response := some (result s.cfg.variant b0 b1 b2 b3) } ∧
      runScript (frameScript k b0 b1 b2 b3 ++ [.tryReceive, .tryReceive]) s = .next { s with
        frameBuffer := m
        frameReady := false
        edgeArmed := true
        tickCount := 0
        bitIndex := 0
        response := some .noData }

/-- 30_encoding.md R52 and 70_reset_and_hazards.md R147, in ticks of the script: a frame is 67 edges,
and its length in ticks depends on the number of ones among its bits only. -/
def Obligations.FrameScriptLength : Prop :=
  ∀ (k : ScriptConsts) (b0 b1 b2 b3 : Byte), let n := (frameBits b0 b1 b2 b3).count true
    (frameScript k b0 b1 b2 b3).count .edge = 67 ∧
    (frameScript k b0 b1 b2 b3).count .tick =
      k.a + k.g + 32 * k.m + (32 - n) * k.z + n * k.o

/-- 70_reset_and_hazards.md R140, R149: an edge after which the signal is silent opens a capture that
the timeout ends TICK_CEILING + 1 ticks later, with the state as it was. -/
def Obligations.LoneEdgeTimesOut : Prop :=
  ∀ s : State, s.cfg.wf = true → s.edgeArmed = true → s.decodeState = .named .idle →
    runScript (.edge :: ticks (s.cfg.tickCeiling + 1)) s = .next { s with
      tickCount := 0
      bitIndex := 0
      response := none }
end

