-- ==== Sys2Proof/Laws/Buffer.lean ====
section
/-! SUPPORT. The buffer as memory: a read after a write, the canonical form, and what the byte and
word views read. -/

namespace Sys2Proof.Machine

@[simp] theorem read_write_same (m : Mem) (a : Nat) (b : Bool) :
    Mem.read? (Mem.write m a b) a = some b := by
  induction m with
  | nil => simp [Mem.write, Mem.read?]
  | cons e m ih =>
    obtain ⟨k, v⟩ := e
    by_cases h1 : a < k
    · simp [Mem.write, Mem.read?, h1]
    · by_cases h2 : a = k
      · simp [Mem.write, Mem.read?, h2]
      · simp [Mem.write, Mem.read?, h1, h2, Ne.symm h2, ih]

theorem read_write_other (m : Mem) {a c : Nat} (b : Bool) (h : c ≠ a) :
    Mem.read? (Mem.write m a b) c = Mem.read? m c := by
  induction m with
  | nil => simp [Mem.write, Mem.read?, h.symm]
  | cons e m ih =>
    obtain ⟨k, v⟩ := e
    by_cases h1 : a < k
    · simp [Mem.write, Mem.read?, h1, h.symm]
    · by_cases h2 : a = k
      · subst h2
        simp [Mem.write, Mem.read?, h.symm]
      · by_cases h3 : k = c
        · subst h3
          simp [Mem.write, Mem.read?, h1, h2]
        · simp [Mem.write, Mem.read?, h1, h2, h3, ih]

/-- A read after a write, in one equation. -/
theorem read_write (m : Mem) (a c : Nat) (b : Bool) :
    Mem.read? (Mem.write m a b) c = if c = a then some b else Mem.read? m c := by
  split
  · next h => rw [h, read_write_same]
  · next h => exact read_write_other m b h

theorem wfFrom_write (m : Mem) (lo a : Nat) (b : Bool) (hlo : lo ≤ a) (ha : a < 32)
    (h : Mem.wfFrom lo m = true) : Mem.wfFrom lo (Mem.write m a b) = true := by
  induction m generalizing lo with
  | nil => simp [Mem.write, Mem.wfFrom, hlo, ha]
  | cons e m ih =>
    obtain ⟨k, v⟩ := e
    simp only [Mem.wfFrom, Bool.and_eq_true, decide_eq_true_eq] at h
    obtain ⟨⟨hk, hk32⟩, hm⟩ := h
    by_cases h1 : a < k
    · simp [Mem.write, Mem.wfFrom, h1, hlo, ha, hk32, hm, Nat.succ_le_of_lt h1]
    · by_cases h2 : a = k
      · subst h2
        simp [Mem.write, Mem.wfFrom, hk, hk32, hm]
      · simp [Mem.write, Mem.wfFrom, h1, h2, hk, hk32, ih (k + 1) (by omega) hm]

/-- BufWrite keeps the canonical form (20_memory.md R36). -/
theorem wf_write (m : Mem) (i : SlotIdx) (b : Bool) (h : Mem.wf m = true) :
    Mem.wf (Mem.write m i.val b) = true :=
  wfFrom_write m 0 i.val b (Nat.zero_le _) i.isLt h

theorem slot_bufWrite (i : SlotIdx) (b : Bool) (s : State) (a : Nat) :
    slot (bufWrite i b s) a = if a = i.val then b else slot s a := by
  simp only [slot, bufWrite, read_write]
  split <;> rfl

/-- A written slot reads as its bit, whatever the power-up. -/
theorem slot_of_read {s : State} {a : Nat} {b : Bool} (h : Mem.read? s.frameBuffer a = some b) :
    slot s a = b := by simp [slot, h]

theorem bitsToNat_lt (bs : List Bool) : bitsToNat bs < 2 ^ bs.length := by
  induction bs with
  | nil => simp [bitsToNat]
  | cons b bs ih =>
    have : b.toNat ≤ 1 := Bool.toNat_le b
    simp only [bitsToNat, List.length_cons, Nat.pow_succ]
    omega

/-- Bit i of the number is entry i of the list (20_memory.md R35). -/
theorem testBit_bitsToNat (bs : List Bool) (i : Nat) :
    (bitsToNat bs).testBit i = bs.getD i false := by
  induction bs generalizing i with
  | nil => simp [bitsToNat]
  | cons b bs ih =>
    cases i with
    | zero => cases b <;> simp [bitsToNat, Nat.testBit_zero]
    | succ i =>
      have hdiv : (b.toNat + 2 * bitsToNat bs) / 2 = bitsToNat bs := by
        have : b.toNat ≤ 1 := Bool.toNat_le b
        omega
      simp [bitsToNat, Nat.testBit_succ, hdiv, ih]

@[simp] theorem length_slots (s : State) (lo n : Nat) : (slots s lo n).length = n := by
  simp [slots]

theorem getD_slots (s : State) (lo n i : Nat) (h : i < n) :
    (slots s lo n).getD i false = slot s (lo + i) := by
  simp [slots, List.getD_eq_getElem?_getD, h]

/-- Bit i of a byte is slot 8k + i (20_memory.md R39). -/
theorem getLsbD_byteAt (s : State) (k i : Nat) (h : i < 8) :
    (byteAt s k).getLsbD i = slot s (8 * k + i) := by
  simp only [byteAt, BitVec.getLsbD_ofNat, h, decide_true, Bool.true_and, testBit_bitsToNat]
  exact getD_slots s (8 * k) 8 i h

/-- Bit i of FrameWord is slot i (20_memory.md R38). -/
theorem getLsbD_frameWord (s : State) (i : Nat) (h : i < 32) :
    (frameWord s).getLsbD i = slot s i := by
  simp only [frameWord, BitVec.getLsbD_ofNat, h, decide_true, Bool.true_and, testBit_bitsToNat]
  simpa using getD_slots s 0 32 i h

theorem writtenBelow_mono {m n : Nat} {s : State} (hmn : m ≤ n) (h : writtenBelow n s) :
    writtenBelow m s :=
  fun i hi => h i (by omega)

/-- Where every slot has been written, no slot depends on the power-up. -/
theorem slot_of_written {s : State} {n a : Nat} (h : writtenBelow n s) (ha : a < n) (p : Nat) :
    slot { s with powerUp := p } a = slot s a := by
  obtain ⟨b, hb⟩ := Option.isSome_iff_exists.mp (h a ha)
  simp [slot, hb]

theorem writtenBelow_bufWrite (s : State) (i : SlotIdx) (b : Bool)
    (h : writtenBelow i.val s) : writtenBelow (i.val + 1) (bufWrite i b s) := by
  intro a ha
  by_cases hai : a = i.val
  · simp [bufWrite, hai]
  · simpa [bufWrite, read_write, hai] using h a (by omega)

end Sys2Proof.Machine
end

