-- ==== Sys2Proof/Laws/Decode.lean ====
section
/-! SUPPORT. The fields of a packed dispatch word, and the row it decodes to. -/

namespace Sys2Proof

@[simp] theorem Event.ofCode_code (ev : Event) : Event.ofCode ev.code = ev := by
  cases ev <;> rfl

@[simp] theorem StateReg.ofCode_code (st : StateReg) : StateReg.ofCode st.code = st := by
  rcases st with d | c
  · cases d <;> rfl
  · cases c <;> rfl

theorem wordEvent_packWord (ev : Event) (armed ready : Bool) (st : StateReg) :
    wordEvent (packWord ev armed ready st) = ev := by
  cases ev <;> cases armed <;> cases ready <;> rcases st with d | c <;>
    first | (cases d <;> rfl) | (cases c <;> rfl)

theorem wordArmed_packWord (ev : Event) (armed ready : Bool) (st : StateReg) :
    wordArmed (packWord ev armed ready st) = armed := by
  cases ev <;> cases armed <;> cases ready <;> rcases st with d | c <;>
    first | (cases d <;> rfl) | (cases c <;> rfl)

theorem wordReady_packWord (ev : Event) (armed ready : Bool) (st : StateReg) :
    wordReady (packWord ev armed ready st) = ready := by
  cases ev <;> cases armed <;> cases ready <;> rcases st with d | c <;>
    first | (cases d <;> rfl) | (cases c <;> rfl)

theorem wordState_packWord (ev : Event) (armed ready : Bool) (st : StateReg) :
    wordState (packWord ev armed ready st) = st := by
  cases ev <;> cases armed <;> cases ready <;> rcases st with d | c <;>
    first | (cases d <;> rfl) | (cases c <;> rfl)

/-- A packed word decodes to the class of its fields (30_encoding.md R64). -/
@[simp] theorem decode_packWord (ev : Event) (armed ready : Bool) (st : StateReg) :
    decode (packWord ev armed ready st) = dispatchClass ev armed ready st := by
  simp only [decode, wordEvent_packWord, wordArmed_packWord, wordReady_packWord,
    wordState_packWord]

end Sys2Proof

namespace Sys2Proof.Machine

/-- The row of an event is the class of its context. -/
theorem rowOf_eq (ev : Event) (s : State) :
    rowOf ev s = dispatchClass ev s.edgeArmed s.frameReady s.decodeState := by
  simp [rowOf, dispatchWord]

end Sys2Proof.Machine
end

