-- ==== Sys2Proof/Laws/State.lean ====
section
/-! SUPPORT. One lemma per field per named update of the state, so that no proof unfolds a record
update. -/

namespace Sys2Proof.Machine

/-! ## BufWrite (20_memory.md R36) changes FrameBuffer only. -/

@[simp] theorem bufWrite_cfg (i : SlotIdx) (b : Bool) (s : State) :
    (bufWrite i b s).cfg = s.cfg := rfl
@[simp] theorem bufWrite_decodeState (i : SlotIdx) (b : Bool) (s : State) :
    (bufWrite i b s).decodeState = s.decodeState := rfl
@[simp] theorem bufWrite_tickCount (i : SlotIdx) (b : Bool) (s : State) :
    (bufWrite i b s).tickCount = s.tickCount := rfl
@[simp] theorem bufWrite_bitIndex (i : SlotIdx) (b : Bool) (s : State) :
    (bufWrite i b s).bitIndex = s.bitIndex := rfl
@[simp] theorem bufWrite_frameBuffer (i : SlotIdx) (b : Bool) (s : State) :
    (bufWrite i b s).frameBuffer = Mem.write s.frameBuffer i.val b := rfl
@[simp] theorem bufWrite_frameReady (i : SlotIdx) (b : Bool) (s : State) :
    (bufWrite i b s).frameReady = s.frameReady := rfl
@[simp] theorem bufWrite_edgeArmed (i : SlotIdx) (b : Bool) (s : State) :
    (bufWrite i b s).edgeArmed = s.edgeArmed := rfl
@[simp] theorem bufWrite_inputs (i : SlotIdx) (b : Bool) (s : State) :
    (bufWrite i b s).inputs = s.inputs := rfl
@[simp] theorem bufWrite_response (i : SlotIdx) (b : Bool) (s : State) :
    (bufWrite i b s).response = s.response := rfl
@[simp] theorem bufWrite_picks (i : SlotIdx) (b : Bool) (s : State) :
    (bufWrite i b s).picks = s.picks := rfl
@[simp] theorem bufWrite_powerUp (i : SlotIdx) (b : Bool) (s : State) :
    (bufWrite i b s).powerUp = s.powerUp := rfl

/-! ## The prelude's clearing (41_frame_fsm.md R82) changes TickCount only. -/

@[simp] theorem clearTick_cfg (s : State) : (clearTick s).cfg = s.cfg := rfl
@[simp] theorem clearTick_decodeState (s : State) : (clearTick s).decodeState = s.decodeState := rfl
@[simp] theorem clearTick_tickCount (s : State) : (clearTick s).tickCount = 0 := rfl
@[simp] theorem clearTick_bitIndex (s : State) : (clearTick s).bitIndex = s.bitIndex := rfl
@[simp] theorem clearTick_frameBuffer (s : State) : (clearTick s).frameBuffer = s.frameBuffer := rfl
@[simp] theorem clearTick_frameReady (s : State) : (clearTick s).frameReady = s.frameReady := rfl
@[simp] theorem clearTick_edgeArmed (s : State) : (clearTick s).edgeArmed = s.edgeArmed := rfl
@[simp] theorem clearTick_inputs (s : State) : (clearTick s).inputs = s.inputs := rfl
@[simp] theorem clearTick_response (s : State) : (clearTick s).response = s.response := rfl
@[simp] theorem clearTick_picks (s : State) : (clearTick s).picks = s.picks := rfl
@[simp] theorem clearTick_powerUp (s : State) : (clearTick s).powerUp = s.powerUp := rfl

/-! ## Going on to a state changes DecodeState only. -/

@[simp] theorem goTo_cfg (d : DecodeState) (s : State) : (goTo d s).cfg = s.cfg := rfl
@[simp] theorem goTo_decodeState (d : DecodeState) (s : State) :
    (goTo d s).decodeState = .named d := rfl
@[simp] theorem goTo_tickCount (d : DecodeState) (s : State) :
    (goTo d s).tickCount = s.tickCount := rfl
@[simp] theorem goTo_bitIndex (d : DecodeState) (s : State) :
    (goTo d s).bitIndex = s.bitIndex := rfl
@[simp] theorem goTo_frameBuffer (d : DecodeState) (s : State) :
    (goTo d s).frameBuffer = s.frameBuffer := rfl
@[simp] theorem goTo_frameReady (d : DecodeState) (s : State) :
    (goTo d s).frameReady = s.frameReady := rfl
@[simp] theorem goTo_edgeArmed (d : DecodeState) (s : State) :
    (goTo d s).edgeArmed = s.edgeArmed := rfl
@[simp] theorem goTo_inputs (d : DecodeState) (s : State) : (goTo d s).inputs = s.inputs := rfl
@[simp] theorem goTo_response (d : DecodeState) (s : State) :
    (goTo d s).response = s.response := rfl
@[simp] theorem goTo_picks (d : DecodeState) (s : State) : (goTo d s).picks = s.picks := rfl
@[simp] theorem goTo_powerUp (d : DecodeState) (s : State) : (goTo d s).powerUp = s.powerUp := rfl

/-! ## `abort` writes DecodeState, BitIndex and TickCount (41_frame_fsm.md R91). -/

@[simp] theorem abort_cfg (c : AbortCause) (s : State) : (abort c s).cfg = s.cfg := rfl
@[simp] theorem abort_decodeState (c : AbortCause) (s : State) :
    (abort c s).decodeState = .named .idle := rfl
@[simp] theorem abort_tickCount (c : AbortCause) (s : State) : (abort c s).tickCount = 0 := rfl
@[simp] theorem abort_bitIndex (c : AbortCause) (s : State) : (abort c s).bitIndex = 0 := rfl
@[simp] theorem abort_frameBuffer (c : AbortCause) (s : State) :
    (abort c s).frameBuffer = s.frameBuffer := rfl
@[simp] theorem abort_frameReady (c : AbortCause) (s : State) :
    (abort c s).frameReady = s.frameReady := rfl
@[simp] theorem abort_edgeArmed (c : AbortCause) (s : State) :
    (abort c s).edgeArmed = s.edgeArmed := rfl
@[simp] theorem abort_inputs (c : AbortCause) (s : State) : (abort c s).inputs = s.inputs := rfl
@[simp] theorem abort_response (c : AbortCause) (s : State) :
    (abort c s).response = s.response := rfl
@[simp] theorem abort_picks (c : AbortCause) (s : State) : (abort c s).picks = s.picks := rfl
@[simp] theorem abort_powerUp (c : AbortCause) (s : State) : (abort c s).powerUp = s.powerUp := rfl

/-! ## `complete` writes five elements (41_frame_fsm.md R90). -/

@[simp] theorem complete_cfg (s : State) : (complete s).cfg = s.cfg := rfl
@[simp] theorem complete_decodeState (s : State) : (complete s).decodeState = .named .idle := rfl
@[simp] theorem complete_tickCount (s : State) : (complete s).tickCount = 0 := rfl
@[simp] theorem complete_bitIndex (s : State) : (complete s).bitIndex = 0 := rfl
@[simp] theorem complete_frameBuffer (s : State) : (complete s).frameBuffer = s.frameBuffer := rfl
@[simp] theorem complete_frameReady (s : State) : (complete s).frameReady = true := rfl
@[simp] theorem complete_edgeArmed (s : State) : (complete s).edgeArmed = false := rfl
@[simp] theorem complete_inputs (s : State) : (complete s).inputs = s.inputs := rfl
@[simp] theorem complete_response (s : State) : (complete s).response = s.response := rfl
@[simp] theorem complete_picks (s : State) : (complete s).picks = s.picks := rfl
@[simp] theorem complete_powerUp (s : State) : (complete s).powerUp = s.powerUp := rfl

/-! ## RESET writes all elements but FrameBuffer (70_reset_and_hazards.md R131). -/

@[simp] theorem resetElements_cfg (s : State) : (resetElements s).cfg = s.cfg := rfl
@[simp] theorem resetElements_decodeState (s : State) :
    (resetElements s).decodeState = .named .idle := rfl
@[simp] theorem resetElements_tickCount (s : State) : (resetElements s).tickCount = 0 := rfl
@[simp] theorem resetElements_bitIndex (s : State) : (resetElements s).bitIndex = 0 := rfl
@[simp] theorem resetElements_frameBuffer (s : State) :
    (resetElements s).frameBuffer = s.frameBuffer := rfl
@[simp] theorem resetElements_frameReady (s : State) : (resetElements s).frameReady = false := rfl
@[simp] theorem resetElements_edgeArmed (s : State) : (resetElements s).edgeArmed = true := rfl
@[simp] theorem resetElements_inputs (s : State) : (resetElements s).inputs = s.inputs := rfl
@[simp] theorem resetElements_response (s : State) : (resetElements s).response = s.response := rfl
@[simp] theorem resetElements_picks (s : State) : (resetElements s).picks = s.picks := rfl
@[simp] theorem resetElements_powerUp (s : State) : (resetElements s).powerUp = s.powerUp := rfl

/-! ## A time without requests touches the inputs and the response only. -/

@[simp] theorem passQuiet_cfg (s : State) : (passQuiet s).cfg = s.cfg := rfl
@[simp] theorem passQuiet_decodeState (s : State) : (passQuiet s).decodeState = s.decodeState := rfl
@[simp] theorem passQuiet_tickCount (s : State) : (passQuiet s).tickCount = s.tickCount := rfl
@[simp] theorem passQuiet_bitIndex (s : State) : (passQuiet s).bitIndex = s.bitIndex := rfl
@[simp] theorem passQuiet_frameBuffer (s : State) : (passQuiet s).frameBuffer = s.frameBuffer := rfl
@[simp] theorem passQuiet_frameReady (s : State) : (passQuiet s).frameReady = s.frameReady := rfl
@[simp] theorem passQuiet_edgeArmed (s : State) : (passQuiet s).edgeArmed = s.edgeArmed := rfl
@[simp] theorem passQuiet_inputs (s : State) : (passQuiet s).inputs = s.inputs.tail := rfl
@[simp] theorem passQuiet_response (s : State) : (passQuiet s).response = none := rfl
@[simp] theorem passQuiet_picks (s : State) : (passQuiet s).picks = s.picks := rfl
@[simp] theorem passQuiet_powerUp (s : State) : (passQuiet s).powerUp = s.powerUp := rfl

/-! ## Presenting a dispatch word sets its three fields and the next request. -/

@[simp] theorem presentWord_cfg (w : DispatchWord) (s : State) :
    (presentWord w s).cfg = s.cfg := rfl
@[simp] theorem presentWord_decodeState (w : DispatchWord) (s : State) :
    (presentWord w s).decodeState = wordState w := rfl
@[simp] theorem presentWord_tickCount (w : DispatchWord) (s : State) :
    (presentWord w s).tickCount = s.tickCount := rfl
@[simp] theorem presentWord_bitIndex (w : DispatchWord) (s : State) :
    (presentWord w s).bitIndex = s.bitIndex := rfl
@[simp] theorem presentWord_frameBuffer (w : DispatchWord) (s : State) :
    (presentWord w s).frameBuffer = s.frameBuffer := rfl
@[simp] theorem presentWord_frameReady (w : DispatchWord) (s : State) :
    (presentWord w s).frameReady = wordReady w := rfl
@[simp] theorem presentWord_edgeArmed (w : DispatchWord) (s : State) :
    (presentWord w s).edgeArmed = wordArmed w := rfl
@[simp] theorem presentWord_inputs (w : DispatchWord) (s : State) :
    (presentWord w s).inputs = Strobes.only (wordEvent w) :: s.inputs := rfl
@[simp] theorem presentWord_response (w : DispatchWord) (s : State) :
    (presentWord w s).response = s.response := rfl
@[simp] theorem presentWord_picks (w : DispatchWord) (s : State) :
    (presentWord w s).picks = s.picks := rfl
@[simp] theorem presentWord_powerUp (w : DispatchWord) (s : State) :
    (presentWord w s).powerUp = s.powerUp := rfl

/-! ## Feeding a script changes the inputs only. -/

@[simp] theorem feed_cfg (es : Script) (s : State) : (feed es s).cfg = s.cfg := rfl
@[simp] theorem feed_decodeState (es : Script) (s : State) :
    (feed es s).decodeState = s.decodeState := rfl
@[simp] theorem feed_tickCount (es : Script) (s : State) :
    (feed es s).tickCount = s.tickCount := rfl
@[simp] theorem feed_bitIndex (es : Script) (s : State) : (feed es s).bitIndex = s.bitIndex := rfl
@[simp] theorem feed_frameBuffer (es : Script) (s : State) :
    (feed es s).frameBuffer = s.frameBuffer := rfl
@[simp] theorem feed_frameReady (es : Script) (s : State) :
    (feed es s).frameReady = s.frameReady := rfl
@[simp] theorem feed_edgeArmed (es : Script) (s : State) :
    (feed es s).edgeArmed = s.edgeArmed := rfl
@[simp] theorem feed_inputs (es : Script) (s : State) :
    (feed es s).inputs = es.map Strobes.only ++ s.inputs := rfl
@[simp] theorem feed_response (es : Script) (s : State) : (feed es s).response = s.response := rfl
@[simp] theorem feed_picks (es : Script) (s : State) : (feed es s).picks = s.picks := rfl
@[simp] theorem feed_powerUp (es : Script) (s : State) : (feed es s).powerUp = s.powerUp := rfl

/-! ## The state after reset (10_state.md R22). -/

@[simp] theorem resetWith_cfg (c : Cfg) (p : Nat) : (State.resetWith c p).cfg = c := rfl
@[simp] theorem resetWith_decodeState (c : Cfg) (p : Nat) :
    (State.resetWith c p).decodeState = .named .idle := rfl
@[simp] theorem resetWith_tickCount (c : Cfg) (p : Nat) : (State.resetWith c p).tickCount = 0 := rfl
@[simp] theorem resetWith_bitIndex (c : Cfg) (p : Nat) : (State.resetWith c p).bitIndex = 0 := rfl
@[simp] theorem resetWith_frameBuffer (c : Cfg) (p : Nat) :
    (State.resetWith c p).frameBuffer = [] := rfl
@[simp] theorem resetWith_frameReady (c : Cfg) (p : Nat) :
    (State.resetWith c p).frameReady = false := rfl
@[simp] theorem resetWith_edgeArmed (c : Cfg) (p : Nat) :
    (State.resetWith c p).edgeArmed = true := rfl
@[simp] theorem resetWith_inputs (c : Cfg) (p : Nat) : (State.resetWith c p).inputs = [] := rfl
@[simp] theorem resetWith_response (c : Cfg) (p : Nat) :
    (State.resetWith c p).response = none := rfl
@[simp] theorem resetWith_picks (c : Cfg) (p : Nat) : (State.resetWith c p).picks = 0 := rfl
@[simp] theorem resetWith_powerUp (c : Cfg) (p : Nat) : (State.resetWith c p).powerUp = p := rfl

end Sys2Proof.Machine
end

