-- ==== Sys2Proof/Laws/Ops.lean ====
section
/-! SUPPORT. One lemma per shared operation: everything it can do. -/

namespace Sys2Proof.Machine

theorem inw_iff {e : Nat} {w : Window} : inw e w = true ↔ w.min ≤ e ∧ e ≤ w.max := by
  simp [inw]

theorem atCeiling_iff {s : State} : atCeiling s = true ↔ s.cfg.tickCeiling ≤ s.tickCount := by
  simp [atCeiling]

/-- A TICK does nothing in Idle, times out at the ceiling, else counts (40_tick_source.md R75). -/
theorem tickRun_cases (s : State) :
    (s.decodeState = .named .idle ∧ tickRun s = s) ∨
      (s.decodeState ≠ .named .idle ∧ s.cfg.tickCeiling ≤ s.tickCount ∧
        tickRun s = abort .timeout s) ∨
      (s.decodeState ≠ .named .idle ∧ s.tickCount < s.cfg.tickCeiling ∧
        tickRun s = { s with tickCount := s.tickCount + 1 }) := by
  by_cases hi : s.decodeState = .named .idle
  · exact .inl ⟨hi, by simp [tickRun, hi]⟩
  · by_cases hc : s.cfg.tickCeiling ≤ s.tickCount
    · exact .inr (.inl ⟨hi, hc, by simp [tickRun, hi, atCeiling_iff.mpr hc]⟩)
    · exact .inr (.inr ⟨hi, by omega, by simp [tickRun, hi, atCeiling, hc]⟩)

/-- The end of an interval: nothing outside its state, else advance or abort (41_frame_fsm.md R85 to
R87). -/
theorem closeInterval_cases (here : DecodeState) (w : Window) (there : DecodeState) (s : State) :
    (¬(s.edgeArmed = true ∧ s.decodeState = .named here) ∧ closeInterval here w there s = s) ∨
      (s.edgeArmed = true ∧ s.decodeState = .named here ∧ inw s.tickCount w = true ∧
        closeInterval here w there s = goTo there (clearTick s)) ∨
      (s.edgeArmed = true ∧ s.decodeState = .named here ∧ inw s.tickCount w = false ∧
        closeInterval here w there s = abort .violation s) := by
  by_cases hg : s.edgeArmed = true ∧ s.decodeState = .named here
  · cases hw : inw s.tickCount w
    · exact .inr (.inr ⟨hg.1, hg.2, rfl, by simp [closeInterval, hg, hw, abort, clearTick]⟩)
    · exact .inr (.inl ⟨hg.1, hg.2, rfl, by simp [closeInterval, hg, hw]⟩)
  · exact .inl ⟨hg, by simp only [closeInterval, if_neg hg]⟩

/-- The class of a bit space, by the two window tests (41_frame_fsm.md R89). -/
theorem classifySpace_cases (c : Cfg) (e : Nat) :
    (classifySpace c e = .bit false ∧ inw e c.s0 = true) ∨
      (classifySpace c e = .bit true ∧ inw e c.s0 = false ∧ inw e c.s1 = true) ∨
      (classifySpace c e = .violation ∧ inw e c.s0 = false ∧ inw e c.s1 = false) := by
  cases h0 : inw e c.s0 <;> cases h1 : inw e c.s1 <;> simp [classifySpace, h0, h1]

/-- The end of a bit space: nothing outside its state, else abort, complete or go on
(41_frame_fsm.md R88). -/
theorem closeBitSpace_cases (s : State) :
    (¬(s.edgeArmed = true ∧ s.decodeState = .named .awaitingBitSpace) ∧ closeBitSpace s = s) ∨
      (s.edgeArmed = true ∧ s.decodeState = .named .awaitingBitSpace ∧
        classifySpace s.cfg s.tickCount = .violation ∧ closeBitSpace s = abort .violation s) ∨
      (s.edgeArmed = true ∧ s.decodeState = .named .awaitingBitSpace ∧ s.bitIndex = 31 ∧
        ∃ b, classifySpace s.cfg s.tickCount = .bit b ∧
          closeBitSpace s = complete (bufWrite s.bitIndex b s)) ∨
      (s.edgeArmed = true ∧ s.decodeState = .named .awaitingBitSpace ∧ s.bitIndex ≠ 31 ∧
        ∃ b, classifySpace s.cfg s.tickCount = .bit b ∧
          closeBitSpace s = goTo .awaitingBitMark
            { bufWrite s.bitIndex b (clearTick s) with bitIndex := s.bitIndex + 1 }) := by
  by_cases hg : s.edgeArmed = true ∧ s.decodeState = .named .awaitingBitSpace
  · right
    cases hc : classifySpace s.cfg s.tickCount with
    | violation =>
      exact .inl ⟨hg.1, hg.2, rfl, by simp only [closeBitSpace, if_pos hg, hc]; rfl⟩
    | bit b =>
      by_cases h31 : s.bitIndex = 31
      · refine .inr (.inl ⟨hg.1, hg.2, h31, b, rfl, ?_⟩)
        simp only [closeBitSpace, if_pos hg, hc, storeBit, clearTick_bitIndex]
        exact (if_pos h31).trans rfl
      · refine .inr (.inr ⟨hg.1, hg.2, h31, b, rfl, ?_⟩)
        simp only [closeBitSpace, if_pos hg, hc, storeBit, clearTick_bitIndex]
        exact if_neg h31
  · exact .inl ⟨hg, by simp only [closeBitSpace, if_neg hg]⟩

/-- The start of a capture (41_frame_fsm.md R84). -/
theorem startCapture_cases (s : State) :
    (¬(s.edgeArmed = true ∧ s.decodeState = .named .idle) ∧ startCapture s = s) ∨
      (s.edgeArmed = true ∧ s.decodeState = .named .idle ∧
        startCapture s =
          { s with tickCount := 0, bitIndex := 0, decodeState := .named .awaitingStartLow }) := by
  by_cases hg : s.edgeArmed = true ∧ s.decodeState = .named .idle
  · exact .inr ⟨hg.1, hg.2, by simp only [startCapture, if_pos hg]⟩
  · exact .inl ⟨hg, by simp only [startCapture, if_neg hg]⟩

/-- Consuming a frame (42_frame_decoder.md R103). -/
theorem consumeFrame_cases (s : State) :
    (s.frameReady = false ∧ consumeFrame s = s) ∨
      (s.frameReady = true ∧ consumeFrame s =
        { s with frameReady := false, edgeArmed := true, response := some (bufferResult s) }) := by
  cases h : s.frameReady <;> simp [consumeFrame, h]

/-- Answering with nothing ready (42_frame_decoder.md R99). -/
theorem answerEmpty_cases (s : State) :
    (s.frameReady = true ∧ answerEmpty s = s) ∨
      (s.frameReady = false ∧ answerEmpty s = { s with response := some .noData }) := by
  cases h : s.frameReady <;> simp [answerEmpty, h]

/-- In a well-formed configuration the two bit-space windows share no count (00_scope.md R8(b)). -/
theorem spaces_disjoint {c : Cfg} (hc : c.wf = true) {e : Nat} (h0 : inw e c.s0 = true) :
    inw e c.s1 = false := by
  simp only [Cfg.wf, Cfg.spacesDisjoint, Bool.and_eq_true, decide_eq_true_eq] at hc
  rw [inw_iff] at h0
  cases h1 : inw e c.s1
  · rfl
  · rw [inw_iff] at h1; omega

/-- In a well-formed configuration a count inside any window is below the ceiling (00_scope.md
R8(c)). -/
theorem inw_le_ceiling {c : Cfg} (hc : c.wf = true) {e : Nat}
    (h : inw e c.sm = true ∨ inw e c.sg = true ∨ inw e c.bm = true ∨ inw e c.s0 = true ∨
      inw e c.s1 = true) : e ≤ c.tickCeiling := by
  simp only [Cfg.wf, Cfg.ceilingCovers, Bool.and_eq_true, decide_eq_true_eq] at hc
  simp only [inw_iff] at h
  omega

end Sys2Proof.Machine
end

