-- ==== Sys2Proof/Laws/PerInstr.lean ====
section
/-! SUPPORT. Per-instruction statements. Family Encoding: whatever the untested bits, the words of a
row are handled by that row, and the encoder keeps every untested bit (30_encoding.md R64). -/

namespace Sys2Proof.Laws.Encoding

/-- The row handles each of its words, which keep the untested bits of the context. -/
def Statement (i : Instr) : Prop :=
  ∀ w : DispatchWord,
    i.handles (encode i w) = true ∧ encode i w &&& ~~~ i.opMask = w &&& ~~~ i.opMask

theorem tickIdle : Statement .tickIdle := by unfold Statement; decide
theorem tickStartLow : Statement .tickStartLow := by unfold Statement; decide
theorem tickFirstGap : Statement .tickFirstGap := by unfold Statement; decide
theorem tickBitMark : Statement .tickBitMark := by unfold Statement; decide
theorem tickBitSpace : Statement .tickBitSpace := by unfold Statement; decide
theorem edgeMasked : Statement .edgeMasked := by unfold Statement; decide
theorem edgeIdle : Statement .edgeIdle := by unfold Statement; decide
theorem edgeStartLow : Statement .edgeStartLow := by unfold Statement; decide
theorem edgeFirstGap : Statement .edgeFirstGap := by unfold Statement; decide
theorem edgeBitMark : Statement .edgeBitMark := by unfold Statement; decide
theorem edgeBitSpace : Statement .edgeBitSpace := by unfold Statement; decide
theorem recvEmpty : Statement .recvEmpty := by unfold Statement; decide
theorem recvReady : Statement .recvReady := by unfold Statement; decide
theorem reset : Statement .reset := by unfold Statement; decide
theorem rsvdTickS5 : Statement .rsvdTickS5 := by unfold Statement; decide
theorem rsvdTickS6 : Statement .rsvdTickS6 := by unfold Statement; decide
theorem rsvdTickS7 : Statement .rsvdTickS7 := by unfold Statement; decide
theorem rsvdEdgeS5 : Statement .rsvdEdgeS5 := by unfold Statement; decide
theorem rsvdEdgeS6 : Statement .rsvdEdgeS6 := by unfold Statement; decide
theorem rsvdEdgeS7 : Statement .rsvdEdgeS7 := by unfold Statement; decide

end Sys2Proof.Laws.Encoding
end

