-- ==== Sys2Proof/Laws/Step.lean ====
section
/-! SUPPORT. How a request becomes an event, everything one row can do, and everything one step can
do. -/

namespace Sys2Proof.Machine

/-- A single request is taken as it stands. -/
theorem nextEvent_only {s : State} {ev : Event} {rest : List Strobes}
    (h : s.inputs = Strobes.only ev :: rest) :
    nextEvent s = some (ev, { s with inputs := rest, response := none }) := by
  cases ev <;> simp [nextEvent, h, Strobes.only, Strobes.quiet, Strobes.events, coincidentAnswer]

/-- RESET is taken first and the requests that coincide with it are dropped (30_encoding.md R62). -/
theorem nextEvent_rst {s : State} {r : Strobes} {rest : List Strobes} (h : s.inputs = r :: rest)
    (hr : r.rst = true) :
    nextEvent s = some (.reset, { s with inputs := rest, response := coincidentAnswer r }) := by
  simp [nextEvent, h, hr]

/-- Taking the next event changes the inputs, the response and the coincidence count only. -/
theorem nextEvent_frame {s s' : State} {ev : Event} (h : nextEvent s = some (ev, s')) :
    s' = { s with inputs := s'.inputs, response := s'.response, picks := s'.picks } := by
  unfold nextEvent at h
  split at h
  · simp at h
  · split at h
    · simp only [Option.some.injEq, Prod.mk.injEq] at h
      obtain ⟨-, rfl⟩ := h
      rfl
    · split at h
      · simp at h
      · simp only [Option.some.injEq, Prod.mk.injEq] at h
        obtain ⟨-, rfl⟩ := h
        rfl
      · simp only [Option.some.injEq, Prod.mk.injEq] at h
        obtain ⟨-, rfl⟩ := h
        rfl

/-- Everything a step that goes on can do: pass a time without requests, or run the row of the next
event. -/
theorem step_next_cases {s t : State} (h : step s = .next t) :
    s.cfg.wf = true ∧
      ((nextEvent s = none ∧ t = passQuiet s) ∨
        ∃ ev s', nextEvent s = some (ev, s') ∧ exec (rowOf ev s') s' = .next t) := by
  unfold step at h
  split at h
  · next hc =>
    refine ⟨hc, ?_⟩
    cases hn : nextEvent s with
    | none =>
      simp only [hn] at h
      cases h
      exact .inl ⟨rfl, rfl⟩
    | some p =>
      obtain ⟨ev, s'⟩ := p
      simp only [hn] at h
      exact .inr ⟨ev, s', rfl, h⟩
  · cases h

/-- A row that goes on runs one of eight bodies. -/
theorem exec_next_cases {i : Instr} {s t : State} (h : exec i s = .next t) :
    (i ∈ [.tickIdle, .edgeMasked] ∧ t = s) ∨
      (i ∈ [.tickStartLow, .tickFirstGap, .tickBitMark, .tickBitSpace] ∧ t = tickRun s) ∨
      (i = .edgeIdle ∧ t = startCapture s) ∨
      ((i = .edgeStartLow ∧ t = closeInterval .awaitingStartLow s.cfg.sm .awaitingFirstBitGap s) ∨
        (i = .edgeFirstGap ∧ t = closeInterval .awaitingFirstBitGap s.cfg.sg .awaitingBitMark s) ∨
        (i = .edgeBitMark ∧ t = closeInterval .awaitingBitMark s.cfg.bm .awaitingBitSpace s)) ∨
      (i = .edgeBitSpace ∧ t = closeBitSpace s) ∨
      (i = .recvEmpty ∧ t = answerEmpty s) ∨
      (i = .recvReady ∧ t = consumeFrame s) ∨
      (i = .reset ∧ t = resetElements s) := by
  cases i <;> cases h <;> simp

/-- A well-formed row always goes on (00_scope.md R6 rests on this). -/
theorem exec_isNext_of_wf {i : Instr} (hi : i.wf = true) (s : State) :
    ∃ t, exec i s = .next t := by
  cases i <;> first | exact ⟨_, rfl⟩ | cases hi

/-- The row of an event in a state with one of the five names is well formed. -/
theorem rowOf_wf {s : State} (hs : stateNamed s) (ev : Event) : (rowOf ev s).wf = true := by
  obtain ⟨d, hd⟩ := hs
  rw [rowOf_eq, hd]
  cases ev <;> cases s.edgeArmed <;> cases s.frameReady <;> cases d <;> rfl

end Sys2Proof.Machine
end

