-- ==== Sys2Proof/Laws/Run.lean ====
section
/-! SUPPORT. What one event does by its kind, what every row leaves alone, and how steps, runs and
scripts compose. -/

namespace Sys2Proof.Machine

/-- Everything an event that goes on can do, by its kind and the state (30_encoding.md R64). -/
theorem rowOf_next_cases {s t : State} {ev : Event} (h : exec (rowOf ev s) s = .next t) :
    (ev = .reset ∧ t = resetElements s) ∨
      (ev = .tryReceive ∧
        ((s.frameReady = true ∧ t = consumeFrame s) ∨
          (s.frameReady = false ∧ t = answerEmpty s))) ∨
      (ev = .tick ∧ t = tickRun s) ∨
      (ev = .edge ∧ s.edgeArmed = false ∧ t = s) ∨
      (ev = .edge ∧ s.edgeArmed = true ∧
        ((s.decodeState = .named .idle ∧ t = startCapture s) ∨
          (s.decodeState = .named .awaitingStartLow ∧
            t = closeInterval .awaitingStartLow s.cfg.sm .awaitingFirstBitGap s) ∨
          (s.decodeState = .named .awaitingFirstBitGap ∧
            t = closeInterval .awaitingFirstBitGap s.cfg.sg .awaitingBitMark s) ∨
          (s.decodeState = .named .awaitingBitMark ∧
            t = closeInterval .awaitingBitMark s.cfg.bm .awaitingBitSpace s) ∨
          (s.decodeState = .named .awaitingBitSpace ∧ t = closeBitSpace s))) := by
  rw [rowOf_eq] at h
  cases ev with
  | reset => cases h; exact .inl ⟨rfl, rfl⟩
  | tryReceive =>
    refine .inr (.inl ⟨rfl, ?_⟩)
    cases hr : s.frameReady <;> rw [hr] at h <;> cases h <;> simp
  | tick =>
    refine .inr (.inr (.inl ⟨rfl, ?_⟩))
    rcases hd : s.decodeState with d | c <;> rw [hd] at h
    · cases d <;> cases h <;> first | rfl | simp [tickRun, hd]
    · cases c <;> cases h
  | edge =>
    refine .inr (.inr (.inr ?_))
    cases ha : s.edgeArmed <;> rw [ha] at h
    · cases h; exact .inl ⟨rfl, rfl, rfl⟩
    · refine .inr ⟨rfl, rfl, ?_⟩
      rcases hd : s.decodeState with d | c <;> rw [hd] at h
      · cases d <;> cases h <;> simp
      · cases c <;> cases h

/-- No row writes CFG or the model's own fields beside the response. -/
theorem exec_frame {i : Instr} {s t : State} (h : exec i s = .next t) :
    t.cfg = s.cfg ∧ t.powerUp = s.powerUp ∧ t.inputs = s.inputs ∧ t.picks = s.picks := by
  rcases exec_next_cases h with ⟨-, rfl⟩ | ⟨-, rfl⟩ | ⟨-, rfl⟩ |
      (⟨-, rfl⟩ | ⟨-, rfl⟩ | ⟨-, rfl⟩) | ⟨-, rfl⟩ | ⟨-, rfl⟩ | ⟨-, rfl⟩ | ⟨-, rfl⟩
  · simp
  · rcases tickRun_cases s with ⟨-, e⟩ | ⟨-, -, e⟩ | ⟨-, -, e⟩ <;> rw [e] <;> simp
  · rcases startCapture_cases s with ⟨-, e⟩ | ⟨-, -, e⟩ <;> rw [e] <;> simp
  iterate 3
    · rcases closeInterval_cases _ _ _ s with ⟨-, e⟩ | ⟨-, -, -, e⟩ | ⟨-, -, -, e⟩ <;>
        rw [e] <;> simp
  · rcases closeBitSpace_cases s with ⟨-, e⟩ | ⟨-, -, -, e⟩ | ⟨-, -, -, b, -, e⟩ |
        ⟨-, -, -, b, -, e⟩ <;> rw [e] <;> simp
  · rcases answerEmpty_cases s with ⟨-, e⟩ | ⟨-, e⟩ <;> rw [e] <;> simp
  · rcases consumeFrame_cases s with ⟨-, e⟩ | ⟨-, e⟩ <;> rw [e] <;> simp
  · simp

/-- Every row keeps DecodeState one of its five values (30_encoding.md R61). -/
theorem exec_named {i : Instr} {s t : State} (hs : stateNamed s) (h : exec i s = .next t) :
    stateNamed t := by
  rcases exec_next_cases h with ⟨-, rfl⟩ | ⟨-, rfl⟩ | ⟨-, rfl⟩ |
      (⟨-, rfl⟩ | ⟨-, rfl⟩ | ⟨-, rfl⟩) | ⟨-, rfl⟩ | ⟨-, rfl⟩ | ⟨-, rfl⟩ | ⟨-, rfl⟩
  · exact hs
  · rcases tickRun_cases s with ⟨-, e⟩ | ⟨-, -, e⟩ | ⟨-, -, e⟩ <;> rw [e] <;>
      first | exact hs | exact ⟨_, rfl⟩
  · rcases startCapture_cases s with ⟨-, e⟩ | ⟨-, -, e⟩ <;> rw [e] <;>
      first | exact hs | exact ⟨_, rfl⟩
  iterate 3
    · rcases closeInterval_cases _ _ _ s with ⟨-, e⟩ | ⟨-, -, -, e⟩ | ⟨-, -, -, e⟩ <;>
        rw [e] <;> first | exact hs | exact ⟨_, rfl⟩
  · rcases closeBitSpace_cases s with ⟨-, e⟩ | ⟨-, -, -, e⟩ | ⟨-, -, -, b, -, e⟩ |
        ⟨-, -, -, b, -, e⟩ <;> rw [e] <;> first | exact hs | exact ⟨_, rfl⟩
  · rcases answerEmpty_cases s with ⟨-, e⟩ | ⟨-, e⟩ <;> rw [e] <;> exact hs
  · rcases consumeFrame_cases s with ⟨-, e⟩ | ⟨-, e⟩ <;> rw [e] <;> exact hs
  · exact ⟨_, rfl⟩

/-! ## No row reads the inputs or the coincidence count. -/

theorem tickRun_with (s : State) (k : Nat) (l : List Strobes) :
    tickRun { s with picks := k, inputs := l } = { tickRun s with picks := k, inputs := l } := by
  by_cases h1 : s.decodeState = .named .idle <;>
    by_cases h2 : s.cfg.tickCeiling ≤ s.tickCount <;> simp [tickRun, atCeiling, h1, h2, abort]

theorem startCapture_with (s : State) (k : Nat) (l : List Strobes) :
    startCapture { s with picks := k, inputs := l } =
      { startCapture s with picks := k, inputs := l } := by
  simp only [startCapture]; split_ifs <;> rfl

theorem closeInterval_with (here : DecodeState) (w : Window) (there : DecodeState) (s : State)
    (k : Nat) (l : List Strobes) :
    closeInterval here w there { s with picks := k, inputs := l } =
      { closeInterval here w there s with picks := k, inputs := l } := by
  by_cases h1 : s.edgeArmed = true ∧ s.decodeState = .named here <;>
    by_cases h2 : inw s.tickCount w = true <;>
      simp [closeInterval, h1, h2, abort, goTo, clearTick]

theorem closeBitSpace_with (s : State) (k : Nat) (l : List Strobes) :
    closeBitSpace { s with picks := k, inputs := l } =
      { closeBitSpace s with picks := k, inputs := l } := by
  by_cases h1 : s.edgeArmed = true ∧ s.decodeState = .named .awaitingBitSpace
  · cases hc : classifySpace s.cfg s.tickCount
    · by_cases h2 : s.bitIndex = 31 <;>
        simp [closeBitSpace, h1, h2, hc, storeBit, clearTick, complete, goTo, bufWrite]
    · simp [closeBitSpace, h1, hc, abort, clearTick]
  · simp [closeBitSpace, h1]

theorem answerEmpty_with (s : State) (k : Nat) (l : List Strobes) :
    answerEmpty { s with picks := k, inputs := l } =
      { answerEmpty s with picks := k, inputs := l } := by
  simp only [answerEmpty]; split_ifs <;> rfl

theorem consumeFrame_with (s : State) (k : Nat) (l : List Strobes) :
    consumeFrame { s with picks := k, inputs := l } =
      { consumeFrame s with picks := k, inputs := l } := by
  simp only [consumeFrame]; split_ifs <;> rfl

/-- What a row does is independent of the inputs and of the coincidence count. -/
theorem exec_with {i : Instr} {s t : State} (h : exec i s = .next t) (k : Nat)
    (l : List Strobes) :
    exec i { s with picks := k, inputs := l } = .next { t with picks := k, inputs := l } := by
  cases i <;> cases h <;> (try rfl)
  iterate 4 exact congrArg Host.Outcome.next (tickRun_with s k l)
  · exact congrArg Host.Outcome.next (startCapture_with s k l)
  iterate 3 exact congrArg Host.Outcome.next (closeInterval_with _ _ _ s k l)
  · exact congrArg Host.Outcome.next (closeBitSpace_with s k l)
  · exact congrArg Host.Outcome.next (answerEmpty_with s k l)
  · exact congrArg Host.Outcome.next (consumeFrame_with s k l)

/-! ## Steps, runs and scripts -/

/-- A step on a single request is the row of its event. -/
theorem step_only {s : State} {ev : Event} {rest : List Strobes} (hw : s.cfg.wf = true)
    (h : s.inputs = Strobes.only ev :: rest) :
    step s = exec (rowOf ev s) { s with inputs := rest, response := none } := by
  simp only [step, hw, if_true, nextEvent_only h]; rfl

theorem run_succ_of_next {n : Nat} {s t : State} (h : step s = .next t) :
    Sys2Proof.core.run (n + 1) s = Sys2Proof.core.run n t := by
  have h' : Sys2Proof.core.step s = .next t := h
  simp only [Host.Core.run, h']

theorem run_succ_of_refused {n : Nat} {s : State} {r : Refusal} (h : step s = .refused r) :
    Sys2Proof.core.run (n + 1) s = .refused r := by
  have h' : Sys2Proof.core.step s = .refused r := h
  simp only [Host.Core.run, h']

theorem runScript_nil (s : State) : runScript [] s = .next s := rfl

/-- A script runs its first event as the event's row, then the rest (30_encoding.md R70). -/
theorem runScript_cons {s t : State} {ev : Event} (es : Script) (hw : s.cfg.wf = true)
    (h : exec (rowOf ev s) { s with response := none } = .next t) :
    runScript (ev :: es) s = runScript es t := by
  have hi : t.inputs = s.inputs := (exec_frame h).2.2.1
  have hp : t.picks = s.picks := (exec_frame h).2.2.2
  have hx := exec_with h s.picks (es.map Strobes.only ++ s.inputs)
  refine run_succ_of_next (s := feed (ev :: es) s) (t := feed es t) ?_
  refine (step_only (s := feed (ev :: es) s) hw rfl).trans (hx.trans ?_)
  rw [feed, hi, ← hp]

/-- A script ends in a next state with the same CFG and a named DecodeState, and two scripts in a row
are their concatenation. -/
theorem runScript_append (xs ys : Script) {s : State} (hw : s.cfg.wf = true)
    (hs : stateNamed s) :
    ∃ t, runScript xs s = .next t ∧ t.cfg = s.cfg ∧ stateNamed t ∧
      runScript (xs ++ ys) s = runScript ys t := by
  induction xs generalizing s with
  | nil => exact ⟨s, rfl, rfl, hs, rfl⟩
  | cons ev xs ih =>
    obtain ⟨u, hu⟩ := exec_isNext_of_wf (rowOf_wf hs ev) { s with response := none }
    have hc : u.cfg = s.cfg := (exec_frame hu).1
    have hn : stateNamed u := exec_named (s := { s with response := none }) hs hu
    obtain ⟨t, ht, htc, htn, hta⟩ := ih (s := u) (by rw [hc]; exact hw) hn
    exact ⟨t, by rw [runScript_cons xs hw hu, ht], htc.trans hc, htn,
      by rw [List.cons_append, runScript_cons _ hw hu, hta]⟩

end Sys2Proof.Machine
end

