-- ==== Sys2Proof/Tests/Slice0.lean ====
section
/-! SUPPORT. Tests. Expected values come from the spec: the dispatch words from the bit patterns of
30_encoding.md R64 and 95_test_vectors.md section 6, the results from its sections 3 to 6 (rows VT,
VE, VR, VX) under CFG_50. Then one witness for the hypotheses of every obligation that has some. -/

namespace Sys2Proof.Tests

open Sys2Proof.Machine

/-! ## Helpers -/

/-- `<d, tc, bi, 0, 1>` with an empty buffer, under CFG_50. -/
def st (d : DecodeState) (tc : Nat) (bi : SlotIdx) : State :=
  { State.resetWith Cfg.fifty 0 with decodeState := .named d, tickCount := tc, bitIndex := bi }

/-- The buffer that holds the four bytes. -/
def bufferOf (b0 b1 b2 b3 : Byte) : Mem :=
  (frameBits b0 b1 b2 b3).zipIdx.map fun p => (p.2, p.1)

/-- `<Idle, 0, 0, 1, 0>` with the four bytes in the buffer, in a variant. -/
def ready (v : Variant) (b0 b1 b2 b3 : Byte) : State :=
  { State.resetWith { Cfg.fifty with variant := v } 0 with
    frameBuffer := bufferOf b0 b1 b2 b3, frameReady := true, edgeArmed := false }

/-- The five elements of a next state, as `<S, tc, bi, rdy, arm>` (30_encoding.md R70). -/
def after (o : Host.Outcome State Fault Refusal) :
    Option (StateReg × Nat × Nat × Bool × Bool) :=
  match o with
  | .next t => some (t.decodeState, t.tickCount, t.bitIndex.val, t.frameReady, t.edgeArmed)
  | .fault _ => none
  | .refused _ => none

/-- The slots of a next state that have been written. -/
def bufferAfter (o : Host.Outcome State Fault Refusal) : Option Mem :=
  match o with
  | .next t => some t.frameBuffer
  | .fault _ => none
  | .refused _ => none

/-- The response shown in a next state. -/
def answerAfter (o : Host.Outcome State Fault Refusal) : Option (Option Response) :=
  match o with
  | .next t => some t.response
  | .fault _ => none
  | .refused _ => none

/-! ## WellFormed: an ill-formed term for each check (00_scope.md R8, 30_encoding.md R61) -/

theorem test_wf_references : Cfg.us.wf = true ∧ Cfg.fifty.wf = true := by decide

theorem test_wf_window_lower_bound_zero :
    ({ Cfg.fifty with sm := ⟨0, 225⟩ } : Cfg).wf = false ∧ Window.wf ⟨0, 225⟩ = false := by decide

theorem test_wf_window_empty :
    ({ Cfg.fifty with bm := ⟨15, 14⟩ } : Cfg).wf = false ∧ Window.wf ⟨15, 14⟩ = false := by decide

theorem test_wf_spaces_overlap :
    ({ Cfg.fifty with s0 := ⟨8, 25⟩ } : Cfg).wf = false ∧
      ({ Cfg.fifty with s0 := ⟨8, 25⟩ } : Cfg).spacesDisjoint = false ∧
      ({ Cfg.fifty with s0 := ⟨8, 24⟩ } : Cfg).wf = true := by decide

theorem test_wf_ceiling_below_window :
    ({ Cfg.fifty with tickCeiling := 224 } : Cfg).wf = false ∧
      ({ Cfg.fifty with tickCeiling := 224 } : Cfg).ceilingCovers = false ∧
      ({ Cfg.fifty with tickCeiling := 225 } : Cfg).wf = true := by decide

theorem test_wf_ceiling_does_not_fit :
    ({ Cfg.fifty with tickCeiling := 256 } : Cfg).wf = false ∧
      ({ Cfg.fifty with tickCeiling := 256 } : Cfg).ceilingFits = false ∧
      ({ Cfg.fifty with tickCeiling := 255 } : Cfg).wf = true := by decide

theorem test_wf_reserved_rows :
    (Instr.all.filter fun i => !i.wf) =
      [.rsvdTickS5, .rsvdTickS6, .rsvdTickS7, .rsvdEdgeS5, .rsvdEdgeS6, .rsvdEdgeS7] := by decide

/-! ## Decoding: every row by a word written out from its bit pattern, W = ev armed ready state -/

/-- `00 - - sss` -/
theorem test_decode_tick :
    decode 0b0000000#7 = .tickIdle ∧ decode 0b0010001#7 = .tickStartLow ∧
      decode 0b0001010#7 = .tickFirstGap ∧ decode 0b0010011#7 = .tickBitMark ∧
      decode 0b0011100#7 = .tickBitSpace := by decide

/-- `01 0 - ---` and `01 1 - sss` -/
theorem test_decode_edge :
    decode 0b0100111#7 = .edgeMasked ∧ decode 0b0110000#7 = .edgeIdle ∧
      decode 0b0111001#7 = .edgeStartLow ∧ decode 0b0110010#7 = .edgeFirstGap ∧
      decode 0b0110011#7 = .edgeBitMark ∧ decode 0b0111100#7 = .edgeBitSpace := by decide

/-- `10 - 0 ---`, `10 - 1 ---` and `11 - - ---` -/
theorem test_decode_receive_reset :
    decode 0b1010011#7 = .recvEmpty ∧ decode 0b1001000#7 = .recvReady ∧
      decode 0b1110101#7 = .reset := by decide

/-- `00 - - 1xx` and `01 1 - 1xx` with a reserved state code -/
theorem test_decode_reserved :
    decode 0b0000101#7 = .rsvdTickS5 ∧ decode 0b0010110#7 = .rsvdTickS6 ∧
      decode 0b0000111#7 = .rsvdTickS7 ∧ decode 0b0110101#7 = .rsvdEdgeS5 ∧
      decode 0b0111110#7 = .rsvdEdgeS6 ∧ decode 0b0110111#7 = .rsvdEdgeS7 := by decide

theorem test_decode_bytes_rejected :
    decodeBytes [] = .error .noByte ∧
      decodeBytes [0x80#8, 0x00#8] = .error (.notADispatchWord 0x80#8) ∧
      decodeBytes [0x34#8, 0x12#8] = .ok (.edgeBitSpace, [0x12#8]) := ⟨rfl, rfl, rfl⟩

theorem test_decode_table_word :
    decodeTableWord 7 0x48 = some .recvReady ∧ decodeTableWord 8 0x7F = some .reset ∧
      decodeTableWord 8 0x80 = none := by decide

/-- VD8 with the row's untested bits given back. -/
theorem test_encode_keeps_context :
    encode .edgeMasked 0b0001100#7 = 0b0101100#7 ∧ encode .recvReady 0b1110011#7 = 0b1011011#7 := by
  decide

/-! ## One step of each instruction -/

/-- VT1, VT2 -/
theorem test_tickIdle :
    after (exec .tickIdle (st .idle 0 0)) = some (.named .idle, 0, 0, false, true) ∧
      after (exec .tickIdle (ready .full 0x00 0xFF 0x05 0xFA)) =
        some (.named .idle, 0, 0, true, false) := by decide

/-- VT3, and the last tick of VT7 -/
theorem test_tickStartLow :
    after (exec .tickStartLow (st .awaitingStartLow 0 0)) =
        some (.named .awaitingStartLow, 1, 0, false, true) ∧
      after (exec .tickStartLow (st .awaitingStartLow 240 0)) =
        some (.named .idle, 0, 0, false, true) := by decide

/-- The tick of VT10 -/
theorem test_tickFirstGap :
    after (exec .tickFirstGap (st .awaitingFirstBitGap 112 0)) =
      some (.named .awaitingFirstBitGap, 113, 0, false, true) := by decide

/-- VT4, VT5 -/
theorem test_tickBitMark :
    after (exec .tickBitMark (st .awaitingBitMark 239 7)) =
        some (.named .awaitingBitMark, 240, 7, false, true) ∧
      after (exec .tickBitMark (st .awaitingBitMark 240 7)) =
        some (.named .idle, 0, 0, false, true) := by decide

/-- The first and the last tick of VT9 -/
theorem test_tickBitSpace :
    after (exec .tickBitSpace (st .awaitingBitSpace 100 31)) =
        some (.named .awaitingBitSpace, 101, 31, false, true) ∧
      after (exec .tickBitSpace (st .awaitingBitSpace 240 31)) =
        some (.named .idle, 0, 0, false, true) := by decide

/-- VE2, VE34 -/
theorem test_edgeMasked :
    after (exec .edgeMasked (ready .full 0x00 0xFF 0x05 0xFA)) =
        some (.named .idle, 0, 0, true, false) ∧
      after (exec .edgeMasked
          { st .awaitingBitSpace 34 5 with frameReady := true, edgeArmed := false }) =
        some (.named .awaitingBitSpace, 34, 5, true, false) := by decide

/-- VE1 -/
theorem test_edgeIdle :
    after (exec .edgeIdle (st .idle 0 0)) =
      some (.named .awaitingStartLow, 0, 0, false, true) := by decide

/-- VE3, VE4, VE6, VE7 -/
theorem test_edgeStartLow :
    ([134, 135, 225, 226].map fun e => after (exec .edgeStartLow (st .awaitingStartLow e 0))) =
      [some (.named .idle, 0, 0, false, true),
        some (.named .awaitingFirstBitGap, 0, 0, false, true),
        some (.named .awaitingFirstBitGap, 0, 0, false, true),
        some (.named .idle, 0, 0, false, true)] := by decide

/-- VE11 to VE14 -/
theorem test_edgeFirstGap :
    ([67, 68, 112, 113].map fun e => after (exec .edgeFirstGap (st .awaitingFirstBitGap e 0))) =
      [some (.named .idle, 0, 0, false, true),
        some (.named .awaitingBitMark, 0, 0, false, true),
        some (.named .awaitingBitMark, 0, 0, false, true),
        some (.named .idle, 0, 0, false, true)] := by decide

/-- VE16 to VE19 -/
theorem test_edgeBitMark :
    ([7, 8, 14, 15].map fun e => after (exec .edgeBitMark (st .awaitingBitMark e 5))) =
      [some (.named .idle, 0, 0, false, true),
        some (.named .awaitingBitSpace, 0, 5, false, true),
        some (.named .awaitingBitSpace, 0, 5, false, true),
        some (.named .idle, 0, 0, false, true)] := by decide

/-- VE20 to VE28: the slots written -/
theorem test_edgeBitSpace_windows :
    ([7, 8, 14, 15, 16, 24, 25, 42, 43].map fun e =>
        bufferAfter (exec .edgeBitSpace (st .awaitingBitSpace e 5))) =
      [some [], some [(5, false)], some [(5, false)], some [], some [], some [],
        some [(5, true)], some [(5, true)], some []] := by decide

/-- VE30, VE31, VE33 -/
theorem test_edgeBitSpace_completion :
    ([((34 : Nat), (30 : SlotIdx)), (11, 31), (16, 31)].map fun p =>
        after (exec .edgeBitSpace (st .awaitingBitSpace p.1 p.2))) =
      [some (.named .awaitingBitMark, 0, 31, false, true),
        some (.named .idle, 0, 0, true, false),
        some (.named .idle, 0, 0, false, true)] := by decide

/-- VR1 -/
theorem test_recvEmpty :
    after (exec .recvEmpty (st .awaitingBitMark 3 12)) =
        some (.named .awaitingBitMark, 3, 12, false, true) ∧
      answerAfter (exec .recvEmpty (st .awaitingBitMark 3 12)) = some (some .noData) := by decide

/-- VR2, VR7, VR10 under FULL; the state after VR7 -/
theorem test_recvReady_full :
    answerAfter (exec .recvReady (ready .full 0x00 0xFF 0x05 0xFA)) =
        some (some (.frame 0xFF00 0x05)) ∧
      answerAfter (exec .recvReady (ready .full 0x00 0xFE 0x06 0xFA)) = some (some .noData) ∧
      answerAfter (exec .recvReady (ready .full 0x01 0xFE 0x80 0x7F)) =
        some (some (.frame 0xFE01 0x80)) ∧
      after (exec .recvReady (ready .full 0x00 0xFE 0x06 0xFA)) =
        some (.named .idle, 0, 0, false, true) := by decide

/-- VR4, VR9 under CMD_CHECK, VR3, VR9 under LIGHT -/
theorem test_recvReady_variants :
    answerAfter (exec .recvReady (ready .cmdCheck 0x34 0x12 0xA5 0x5A)) =
        some (some (.frame 0x1234 0xA5)) ∧
      answerAfter (exec .recvReady (ready .cmdCheck 0xFF 0xFF 0xFF 0xFF)) = some (some .noData) ∧
      answerAfter (exec .recvReady (ready .light 0x00 0xFF 0x05 0xF5)) =
        some (some (.command 0x05)) ∧
      answerAfter (exec .recvReady (ready .light 0xFF 0xFF 0xFF 0xFF)) =
        some (some (.command 0xFF)) := by decide

/-- VX1, VX2 -/
theorem test_reset :
    after (exec .reset (st .awaitingBitSpace 7 20)) = some (.named .idle, 0, 0, false, true) ∧
      after (exec .reset (ready .full 0x00 0xFF 0x05 0xFA)) =
        some (.named .idle, 0, 0, false, true) ∧
      bufferAfter (exec .reset (ready .full 0x00 0xFF 0x05 0xFA)) =
        some (bufferOf 0x00 0xFF 0x05 0xFA) := by decide

/-- R61 -/
theorem test_reserved :
    exec .rsvdTickS5 State.reset = .refused (.reservedStateCode .s5) ∧
      exec .rsvdTickS6 State.reset = .refused (.reservedStateCode .s6) ∧
      exec .rsvdTickS7 State.reset = .refused (.reservedStateCode .s7) ∧
      exec .rsvdEdgeS5 State.reset = .refused (.reservedStateCode .s5) ∧
      exec .rsvdEdgeS6 State.reset = .refused (.reservedStateCode .s6) ∧
      exec .rsvdEdgeS7 State.reset = .refused (.reservedStateCode .s7) :=
  ⟨rfl, rfl, rfl, rfl, rfl, rfl⟩

/-! ## Buffer, requests, scripts -/

/-- VB1: the word, and the bits in wire order -/
theorem test_frameWord :
    frameWord (ready .full 0x00 0xFF 0x05 0xFA) = 0xFA05FF00#32 ∧
      byteBits 0x05 = [true, false, true, false, false, false, false, false] := by decide

/-- A word presented is the row the next step runs: VD11 answers from reset. -/
theorem test_withFetchWord :
    after (step (State.reset.withFetchWord 7 0x30)) =
        some (.named .awaitingStartLow, 0, 0, false, true) ∧
      after (step (State.reset.withFetchWord 7 0x03)) =
        some (.named .awaitingBitMark, 1, 0, false, false) := by decide

/-- P9: a TICK and an EDGE that coincide; whichever is first, one of the two results of the spec -/
theorem test_coincidence :
    (step { st .awaitingBitSpace 14 3 with inputs := [⟨false, true, true, false⟩] } = .next
        { st .awaitingBitSpace 15 3 with inputs := [Strobes.only .edge], picks := 1 }) ∨
      (step { st .awaitingBitSpace 14 3 with inputs := [⟨false, true, true, false⟩] } = .next
        { st .awaitingBitMark 0 4 with
          frameBuffer := [(3, false)], inputs := [Strobes.only .tick], picks := 1 }) := by
  have h : Config.coincidentOrder 0 % 2 = 0 ∨ Config.coincidentOrder 0 % 2 = 1 := by omega
  rcases h with h | h
  · left
    have hn : nextEvent { st .awaitingBitSpace 14 3 with inputs := [⟨false, true, true, false⟩] } =
        some (.tick,
          { st .awaitingBitSpace 14 3 with inputs := [Strobes.only .edge], picks := 1 }) := by
      simp [nextEvent, Strobes.events, Strobes.drop, Strobes.only, Strobes.quiet, st,
        State.resetWith, h]
    simp only [step, hn]; rfl
  · right
    have hn : nextEvent { st .awaitingBitSpace 14 3 with inputs := [⟨false, true, true, false⟩] } =
        some (.edge,
          { st .awaitingBitSpace 14 3 with inputs := [Strobes.only .tick], picks := 1 }) := by
      simp [nextEvent, Strobes.events, Strobes.drop, Strobes.only, Strobes.quiet, st,
        State.resetWith, h]
    simp only [step, hn]; rfl

/-- 30_encoding.md R62: a TRY_RECEIVE that coincides with RESET is answered `None`. -/
theorem test_reset_wins :
    answerAfter (step { ready .full 0x00 0xFF 0x05 0xFA with
        inputs := [⟨true, true, true, true⟩] }) = some (some .noData) ∧
      after (step { ready .full 0x00 0xFF 0x05 0xFA with
        inputs := [⟨true, true, true, true⟩] }) = some (.named .idle, 0, 0, false, true) := by
  decide

/-- 30_encoding.md R71, R72: FRAME's first items, and the constants in their windows -/
theorem test_script :
    start 2 1 = [.edge, .tick, .tick, .edge, .tick, .edge] ∧
      ScriptConsts.fifty.fits Cfg.fifty = true ∧ ScriptConsts.us.fits Cfg.us = true := by decide

/-! ## Witnesses: for every obligation with hypotheses, a state and operands that meet them, at the
boundary of every clause -/

/-- A capture with its first bit stored, in the middle of the second space. -/
def midCapture : State :=
  { st .awaitingBitSpace 34 1 with frameBuffer := [(0, true)] }

/-- A frame ready and unread, with requests that neither read nor reset. -/
def unread : State :=
  { ready .full 0x00 0xFF 0x05 0xFA with inputs := [Strobes.only .edge, Strobes.only .tick] }

theorem test_inv_midCapture : Inv midCapture where
  cfgWf := by decide
  memWf := by decide
  named := ⟨_, rfl⟩
  armed := rfl
  readyIdle := by unfold readyImpliesIdle; decide
  idleCleared := by unfold idleImpliesCleared; decide
  bounded := by unfold countBounded; decide
  index := by unfold indexCountsBits writtenBelow; decide
  readyFull := by unfold readyImpliesFull; exact fun h => absurd h (by decide)

theorem test_inv_unread : Inv unread where
  cfgWf := by decide
  memWf := by decide
  named := ⟨_, rfl⟩
  armed := rfl
  readyIdle := by unfold readyImpliesIdle; decide
  idleCleared := by unfold idleImpliesCleared; decide
  bounded := by unfold countBounded; decide
  index := by
    unfold indexCountsBits
    exact ⟨fun h => absurd h (by decide), fun h => absurd h (by decide)⟩
  readyFull := by unfold readyImpliesFull writtenBelow; exact fun _ => by decide

/-- For `ResetSatisfiesInvariants`. -/
theorem test_meets_ResetSatisfiesInvariants : Cfg.us.wf = true ∧ Cfg.fifty.wf = true := by decide

theorem test_meets_TickInIdleChangesNothing :
    (st .idle 0 0).decodeState = .named .idle ∧ unread.decodeState = .named .idle := by decide

/-- Both clauses at the ceiling, in each of the four states. -/
theorem test_meets_TickCountsOrTimesOut :
    ∀ p ∈ [(DecodeState.awaitingStartLow, Instr.tickStartLow),
      (.awaitingFirstBitGap, .tickFirstGap), (.awaitingBitMark, .tickBitMark),
      (.awaitingBitSpace, .tickBitSpace)],
      (st p.1 240 0).decodeState = .named p.1 ∧ (st p.1 240 0).cfg.tickCeiling ≤ 240 ∧
        (st p.1 239 0).decodeState = .named p.1 ∧ 239 < (st p.1 239 0).cfg.tickCeiling := by decide

/-- VT6 and VT7: 240 ticks and 241 ticks from 0, and no tick at the ceiling. -/
theorem test_meets_ManyTicksCountOrTimeOut :
    (st .awaitingStartLow 0 0).cfg.wf = true ∧ stateNamed (st .awaitingStartLow 0 0) ∧
      timerRun (st .awaitingStartLow 0 0) = true ∧
      (st .awaitingStartLow 0 0).tickCount ≤ (st .awaitingStartLow 0 0).cfg.tickCeiling ∧
      (st .awaitingStartLow 0 0).tickCount + 240 ≤ (st .awaitingStartLow 0 0).cfg.tickCeiling ∧
      (st .awaitingStartLow 0 0).cfg.tickCeiling < (st .awaitingStartLow 0 0).tickCount + 241 ∧
      (st .awaitingStartLow 240 0).tickCount + 0 ≤ (st .awaitingStartLow 240 0).cfg.tickCeiling :=
  ⟨by decide, ⟨_, rfl⟩, by decide, by decide, by decide, by decide, by decide⟩

theorem test_meets_CountersNeverWrap :
    (st .awaitingBitSpace 34 30).cfg.wf = true ∧ countBounded (st .awaitingBitSpace 34 30) ∧
      ∃ t, exec .edgeBitSpace (st .awaitingBitSpace 34 30) = .next t ∧ t.bitIndex = 31 :=
  ⟨by decide, by unfold countBounded; decide, _, rfl, by decide⟩

theorem test_meets_CountersNeverWrap_ceiling :
    (st .awaitingBitMark 239 7).cfg.wf = true ∧ countBounded (st .awaitingBitMark 239 7) ∧
      ∃ t, exec .tickBitMark (st .awaitingBitMark 239 7) = .next t ∧ t.tickCount = 240 :=
  ⟨by decide, by unfold countBounded; decide, _, rfl, by decide⟩

theorem test_meets_MaskedEdgeIsDropped : unread.edgeArmed = false := by decide

theorem test_meets_EdgeInIdleStartsCapture :
    (st .idle 0 0).edgeArmed = true ∧ (st .idle 0 0).decodeState = .named .idle := by decide

/-- SM = [135, 225] -/
theorem test_meets_StartMarkAcceptedOrAborted :
    (∀ e ∈ [135, 225], let s := st .awaitingStartLow e 0
      s.edgeArmed = true ∧ s.decodeState = .named .awaitingStartLow ∧
        s.cfg.sm.min ≤ s.tickCount ∧ s.tickCount ≤ s.cfg.sm.max) ∧
      ∀ e ∈ [134, 226], let s := st .awaitingStartLow e 0
        s.edgeArmed = true ∧ s.decodeState = .named .awaitingStartLow ∧
          (s.tickCount < s.cfg.sm.min ∨ s.cfg.sm.max < s.tickCount) := by decide

/-- SG = [68, 112] -/
theorem test_meets_StartGapAcceptedOrAborted :
    (∀ e ∈ [68, 112], let s := st .awaitingFirstBitGap e 0
      s.edgeArmed = true ∧ s.decodeState = .named .awaitingFirstBitGap ∧
        s.cfg.sg.min ≤ s.tickCount ∧ s.tickCount ≤ s.cfg.sg.max) ∧
      ∀ e ∈ [67, 113], let s := st .awaitingFirstBitGap e 0
        s.edgeArmed = true ∧ s.decodeState = .named .awaitingFirstBitGap ∧
          (s.tickCount < s.cfg.sg.min ∨ s.cfg.sg.max < s.tickCount) := by decide

/-- BM = [8, 14] -/
theorem test_meets_BitMarkAcceptedOrAborted :
    (∀ e ∈ [8, 14], let s := st .awaitingBitMark e 5
      s.edgeArmed = true ∧ s.decodeState = .named .awaitingBitMark ∧
        s.cfg.bm.min ≤ s.tickCount ∧ s.tickCount ≤ s.cfg.bm.max) ∧
      ∀ e ∈ [7, 15], let s := st .awaitingBitMark e 5
        s.edgeArmed = true ∧ s.decodeState = .named .awaitingBitMark ∧
          (s.tickCount < s.cfg.bm.min ∨ s.cfg.bm.max < s.tickCount) := by decide

/-- S0 = [8, 14] and S1 = [25, 42]: the violations around them -/
theorem test_meets_BitSpaceStoresBitOrAborts_violation :
    ∀ e ∈ [7, 15, 24, 43], let s := st .awaitingBitSpace e 5
      s.cfg.wf = true ∧ s.edgeArmed = true ∧ s.decodeState = .named .awaitingBitSpace ∧
        inw s.tickCount s.cfg.s0 = false ∧ inw s.tickCount s.cfg.s1 = false := by decide

/-- The bounds of S0 and S1, at BitIndex 31 and at BitIndex 30 -/
theorem test_meets_BitSpaceStoresBitOrAborts_bit :
    ∀ p ∈ [(8, false), (14, false), (25, true), (42, true)],
      ∀ k ∈ [(30 : SlotIdx), 31], let s := st .awaitingBitSpace p.1 k
        s.cfg.wf = true ∧ s.edgeArmed = true ∧ s.decodeState = .named .awaitingBitSpace ∧
          (inw s.tickCount s.cfg.s0 = true ∧ p.2 = false ∨
            inw s.tickCount s.cfg.s1 = true ∧ p.2 = true) := by decide

/-- The slots after 30 and after 0 -/
theorem test_meets_BitSpaceStoresBitOrAborts_next :
    (31 : SlotIdx).val = (st .awaitingBitSpace 34 30).bitIndex.val + 1 ∧
      (1 : SlotIdx).val = (st .awaitingBitSpace 34 0).bitIndex.val + 1 ∧
      (st .awaitingBitSpace 11 31).bitIndex.val = 31 := by decide

theorem test_meets_ArmedEdgeClearsTickCount :
    (stateNamed midCapture ∧ midCapture.edgeArmed = true) ∧
      stateNamed unread ∧ unread.edgeArmed = false :=
  ⟨⟨⟨_, rfl⟩, by decide⟩, ⟨_, rfl⟩, by decide⟩

/-- One count of each of the five intervals, at its ends. -/
theorem test_meets_WindowsClassifyEveryCount : let c := Cfg.fifty
    c.wf = true ∧ 7 < c.s0.min ∧ (c.s0.min ≤ 8 ∧ 8 ≤ c.s0.max) ∧ 14 ≤ c.s0.max ∧
      (c.s0.max < 15 ∧ 15 < c.s1.min) ∧ 24 < c.s1.min ∧ (c.s1.min ≤ 25 ∧ 25 ≤ c.s1.max) ∧
      42 ≤ c.s1.max ∧ c.s1.max < 43 := by decide

theorem test_meets_ReceiveWithNothingReady : midCapture.frameReady = false := by decide

/-- In the three variants; the checks passed and failed (VR2, VR3, VR4). -/
theorem test_meets_ReceiveConsumesReadyFrame :
    ∀ v ∈ [Variant.full, .cmdCheck, .light],
      (ready v 0x00 0xFF 0x05 0xFA).frameReady = true ∧
        (ready v 0x00 0xFF 0x05 0xF5).frameReady = true ∧
        (ready v 0x34 0x12 0xA5 0x5A).frameReady = true := by decide

/-- VR2 meets the first premise, VR7 and VR4 the second. -/
theorem test_meets_FullAcceptsExactlyComplements :
    ((0xFF : Byte) = ~~~(0x00 : Byte) ∧ (0xFA : Byte) = ~~~(0x05 : Byte)) ∧
      ¬((0xFE : Byte) = ~~~(0x00 : Byte) ∧ (0xFA : Byte) = ~~~(0x06 : Byte)) ∧
      ¬((0x12 : Byte) = ~~~(0x34 : Byte) ∧ (0x5A : Byte) = ~~~(0xA5 : Byte)) ∧
      cmdOk 0x05 0xFA = true ∧ sumOk 0x00 0xFF 0x05 0xFA = true := by decide

theorem test_meets_AddressIsHighLow :
    result .full 0x00 0xFF 0x05 0xFA = .frame 0xFF00 0x05 ∧
      result .cmdCheck 0x34 0x12 0xA5 0x5A = .frame 0x1234 0xA5 := by decide

theorem test_meets_FrameWordIsLittleEndian : 0 < 32 ∧ 31 < 32 ∧ 0 < 4 ∧ 3 < 4 := by decide

theorem test_meets_OutputsShowStateAndAnswer :
    (result .full 0x00 0xFF 0x05 0xFA).rdValid = true ∧
      (result .full 0x00 0xFF 0x05 0xF5).rdValid = false ∧
      (result .light 0x00 0xFF 0x05 0xF5).rdValid = true ∧ Variant.full ≠ .light := by decide

theorem test_meets_SecondReceiveFindsNothing :
    let s := { unread with inputs := [Strobes.only .tryReceive, Strobes.only .tryReceive] }
    s.cfg.wf = true ∧ s.frameReady = true ∧
      s.inputs = Strobes.only .tryReceive :: Strobes.only .tryReceive :: [] := by decide

/-- Each reserved code in the register, armed. -/
theorem test_meets_ReservedCodesAreRefused :
    ∀ c ∈ [ReservedCode.s5, .s6, .s7],
      let s := { State.reset with decodeState := .reserved c }
      s.decodeState = .reserved c ∧ s.edgeArmed = true ∧
        c ∈ [(ReservedCode.s5, Instr.rsvdTickS5, Instr.rsvdEdgeS5),
          (.s6, .rsvdTickS6, .rsvdEdgeS6), (.s7, .rsvdTickS7, .rsvdEdgeS7)].map (·.1) := by decide

theorem test_meets_ReservedCodesAreRefused_next :
    ∃ t, exec .edgeIdle State.reset = .next t ∧ t.decodeState ≠ State.reset.decodeState :=
  ⟨_, rfl, by decide⟩

/-- Each event at the head of the inputs. -/
theorem test_meets_StepRunsDecodedRow :
    ∀ ev ∈ [Event.tick, .edge, .tryReceive, .reset],
      let s := { midCapture with inputs := [Strobes.only ev] }
      s.cfg.wf = true ∧ s.inputs = Strobes.only ev :: [] := by decide

/-- The first and the last dispatch word, as 7 and as 8 bits. -/
theorem test_meets_PresentedWordIsRun :
    State.reset.cfg.wf = true ∧ decodeTableWord 7 0x00 = some .tickIdle ∧
      decodeTableWord 8 0x7F = some .reset := by decide

theorem test_meets_IllFormedConfigIsRefused :
    { State.reset with cfg := { Cfg.fifty with s0 := ⟨8, 25⟩ } }.cfg.wf = false ∧
      Cfg.fifty.wf = true := by decide

theorem test_meets_NothingHappensWithoutRequest :
    midCapture.cfg.wf = true ∧ midCapture.inputs = [] ∧
      { midCapture with inputs := [Strobes.quiet] }.inputs = Strobes.quiet :: [] := by decide

/-- RESET with the others; the others without it; one alone. -/
theorem test_meets_CoincidentRequestsAreSerialised :
    midCapture.cfg.wf = true ∧
      ∀ r ∈ [(⟨true, true, true, true⟩ : Strobes), ⟨false, true, true, true⟩,
        ⟨false, true, true, false⟩, ⟨false, false, false, true⟩],
        { midCapture with inputs := [r] }.inputs = r :: [] ∧
          (r.rst = true ∨ r.rst = false ∧ r.events ≠ []) := by decide

theorem test_meets_EveryOperationIsTotal :
    Instr.edgeBitSpace.wf = true ∧ midCapture.cfg.wf = true ∧ stateNamed midCapture :=
  ⟨by decide, by decide, _, rfl⟩

theorem test_meets_OnlyThreeNoOps :
    Instr.edgeIdle.wf = true ∧ Instr.edgeIdle ∉ [Instr.tickIdle, .edgeMasked, .recvEmpty] := by
  decide

theorem test_meets_StepKeepsInvariants :
    ∃ s t, Inv s ∧ s.inputs = [Strobes.only .edge] ∧ step s = .next t ∧ t.bitIndex = 2 :=
  ⟨{ midCapture with inputs := [Strobes.only .edge] }, _,
    { test_inv_midCapture with }, rfl, rfl, by decide⟩

theorem test_meets_RunsFromResetMeetInvariants : Cfg.us.wf = true ∧ Cfg.fifty.wf = true := by decide

/-- One state for each clause; the clauses of an armed EDGE at the bounds of their windows. -/
theorem test_meets_TransitionGraphOfDecodeState :
    (∀ p ∈ [(Event.reset, midCapture), (.tryReceive, unread), (.edge, unread),
        (.tick, st .idle 0 0), (.tick, st .awaitingBitMark 239 7),
        (.tick, st .awaitingBitMark 240 7), (.edge, st .idle 0 0),
        (.edge, st .awaitingStartLow 135 0), (.edge, st .awaitingStartLow 226 0),
        (.edge, st .awaitingFirstBitGap 68 0), (.edge, st .awaitingFirstBitGap 113 0),
        (.edge, st .awaitingBitMark 14 5), (.edge, st .awaitingBitMark 7 5),
        (.edge, st .awaitingBitSpace 15 5), (.edge, st .awaitingBitSpace 14 30),
        (.edge, st .awaitingBitSpace 25 31)],
      (after (exec (rowOf p.1 p.2) p.2)).isSome = true) ∧
      (st .awaitingBitSpace 14 30).bitIndex.val < 31 ∧
      (st .awaitingBitSpace 25 31).bitIndex.val = 31 := by decide

theorem test_meets_OperationsWriteOnlyTheirElements :
    ∀ ev ∈ [Event.tick, .edge, .tryReceive, .reset],
      (after (exec (rowOf ev midCapture) midCapture)).isSome = true := by decide

theorem test_meets_ConfigNeverChanges :
    ∃ t, Sys2Proof.core.run 2 unread = .next t ∧ t.inputs = [] := ⟨_, rfl, rfl⟩

theorem test_meets_OnlyBitSpaceWritesBuffer :
    (∃ t, exec .edgeBitSpace midCapture = .next t ∧ t.frameBuffer = [(0, true), (1, true)]) ∧
      (∃ t, exec .recvReady unread = .next t) ∧ Instr.recvReady ≠ .edgeBitSpace :=
  ⟨⟨_, rfl, by decide⟩, ⟨_, rfl⟩, by decide⟩

/-- Ready set, ready cleared twice, armed cleared, armed set twice. -/
theorem test_meets_WhoSetsReadyAndArmed :
    ((st .awaitingBitSpace 11 31).frameReady = false ∧
      after (exec (rowOf .edge (st .awaitingBitSpace 11 31)) (st .awaitingBitSpace 11 31)) =
        some (.named .idle, 0, 0, true, false) ∧
      (st .awaitingBitSpace 11 31).edgeArmed = true) ∧
      ∀ ev ∈ [Event.tryReceive, .reset],
        unread.frameReady = true ∧ unread.edgeArmed = false ∧
          after (exec (rowOf ev unread) unread) = some (.named .idle, 0, 0, false, true) := by
  refine ⟨⟨by decide, by decide, by decide⟩, by decide⟩

theorem test_meets_EndOfCaptureClearsCounters :
    ∃ t, exec .tickBitMark (st .awaitingBitMark 240 7) = .next t ∧
      (st .awaitingBitMark 240 7).decodeState ≠ .named .idle ∧ t.decodeState = .named .idle :=
  ⟨_, rfl, by decide, by decide⟩

/-- Each condition raised, in states with a name. -/
theorem test_meets_ConditionsAndTheirEffects :
    (stateNamed midCapture ∧ stateNamed unread) ∧
      condition (rowOf .edge (st .awaitingStartLow 226 0)) (st .awaitingStartLow 226 0) =
        some .timingViolation ∧
      condition (rowOf .tick (st .awaitingBitMark 240 7)) (st .awaitingBitMark 240 7) =
        some .timeout ∧
      condition (rowOf .tryReceive (ready .full 0x00 0xFF 0x05 0xF5))
        (ready .full 0x00 0xFF 0x05 0xF5) = some .checksumMismatch ∧
      condition (rowOf .edge unread) unread = some .overwriteSuppression :=
  ⟨⟨⟨_, rfl⟩, ⟨_, rfl⟩⟩, by decide, by decide, by decide, by decide⟩

/-- An edge after 15 ticks and the tick at 241 end the capture. -/
theorem test_meets_AbortLeavesFreshBlock :
    ∃ s u, Inv s ∧ condition (rowOf .edge s) s = some .timingViolation ∧
      Inv u ∧ condition (rowOf .tick u) u = some .timeout :=
  ⟨{ midCapture with tickCount := 15 }, { midCapture with tickCount := 240 },
    { test_inv_midCapture with
      idleCleared := fun h => absurd h (by decide)
      bounded := by unfold countBounded; decide }, by decide,
    { test_inv_midCapture with
      idleCleared := fun h => absurd h (by decide)
      bounded := by unfold countBounded; decide }, by decide⟩

theorem test_meets_UnreadFrameIsKept :
    Inv unread ∧ unread.frameReady = true ∧
      ∀ r ∈ unread.inputs, r.rst = false ∧ r.rd = false :=
  ⟨test_inv_unread, by decide, by decide⟩

theorem test_meets_UnwrittenSlotsAreNeverSeen :
    ∃ s t, Inv s ∧ s.inputs = [Strobes.only .edge] ∧ Sys2Proof.core.run 1 s = .next t :=
  ⟨{ midCapture with inputs := [Strobes.only .edge] }, _, { test_inv_midCapture with }, rfl, rfl⟩

/-- P1's frame, with bit marks and start intervals at the bounds of their windows. -/
theorem test_meets_WholeFrameIsCaptured :
    let s := State.reset
    let bits := frameBits 0x00 0xFF 0x05 0xFA
    let marks := bits.map fun b => if b then (14, 42) else (8, 8)
    s.cfg.wf = true ∧ s.decodeState = .named .idle ∧ s.edgeArmed = true ∧
      inw 135 s.cfg.sm = true ∧ inw 112 s.cfg.sg = true ∧ marks.length = 32 ∧
      (∀ p ∈ marks, inw p.1 s.cfg.bm = true) ∧
      marks.map (fun p => classifySpace s.cfg p.2) = bits.map SpaceClass.bit := by decide

/-- The first and the last bit space among 66 intervals that make a frame ready. -/
theorem test_meets_ReadyExactlyAfter66Intervals_slots :
    let xs : List Nat := [180, 90] ++ (List.replicate 31 [11, 34]).flatten ++ [11, 11]
    xs.length = 66 ∧ xs[3 + 2 * 0]? = some 34 ∧ xs[3 + 2 * 31]? = some 11 ∧
      classifySpace Cfg.fifty 34 = .bit true ∧ classifySpace Cfg.fifty 11 = .bit false := by decide

/-- 66 intervals that pass, and 66 of which the last is a violation. -/
theorem test_meets_ReadyExactlyAfter66Intervals :
    let s := State.reset
    s.cfg.wf = true ∧ s.decodeState = .named .idle ∧ s.edgeArmed = true ∧ s.frameReady = false ∧
      (([180, 90] ++ (List.replicate 32 [11, 34]).flatten : List Nat)).length ≤ 66 ∧
      (([180, 90] ++ (List.replicate 31 [11, 34]).flatten ++ [11, 16] : List Nat)).length ≤ 66 := by
  decide

theorem test_meets_SentFrameIsDeliveredOnce :
    State.reset.cfg.wf = true ∧ ScriptConsts.fifty.fits State.reset.cfg = true ∧
      State.reset.decodeState = .named .idle ∧ State.reset.edgeArmed = true := by decide

theorem test_meets_LoneEdgeTimesOut :
    State.reset.cfg.wf = true ∧ State.reset.edgeArmed = true ∧
      State.reset.decodeState = .named .idle := by decide

end Sys2Proof.Tests
end

section
/-! PROOF. The statements of 00_scope.md: what a well-formed CFG is and who refuses an ill-formed one
(R8), a step without a request (R5), and the totality of the operations (R6). -/

namespace Sys2Proof.Machine

/-! ## The three outcomes of a step -/

theorem step_of_illFormed {s : State} (hw : s.cfg.wf = false) :
    step s = .refused .illFormedConfig := by
  simp [step, hw]

theorem step_of_nextEvent_none {s : State} (hw : s.cfg.wf = true) (hn : nextEvent s = none) :
    step s = .next (passQuiet s) := by
  simp [step, hw, hn]

theorem step_of_nextEvent_some {s s' : State} {ev : Event} (hw : s.cfg.wf = true)
    (hn : nextEvent s = some (ev, s')) : step s = exec (rowOf ev s') s' := by
  simp [step, hw, hn, rowOf]

/-! ## Taking the next event -/

theorem nextEvent_of_inputs_nil {s : State} (h : s.inputs = []) : nextEvent s = none := by
  simp [nextEvent, h]

theorem nextEvent_of_quiet {s : State} {rest : List Strobes}
    (h : s.inputs = Strobes.quiet :: rest) : nextEvent s = none := by
  simp [nextEvent, h, Strobes.quiet, Strobes.events]

theorem stateNamed_of_nextEvent {s s' : State} {ev : Event} (hs : stateNamed s)
    (hn : nextEvent s = some (ev, s')) : stateNamed s' := by
  rw [nextEvent_frame hn]
  exact hs

/-! ## The parts of a well-formed CFG -/

theorem windowsWf_iff {c : Cfg} :
    c.windowsWf = true ↔
      ∀ w ∈ [c.sm, c.sg, c.bm, c.s0, c.s1], 1 ≤ w.min ∧ w.min ≤ w.max := by
  simp [Cfg.windowsWf, Window.wf, and_assoc]

theorem ceilingCovers_iff {c : Cfg} :
    c.ceilingCovers = true ↔
      ∀ w ∈ [c.sm, c.sg, c.bm, c.s0, c.s1], w.max ≤ c.tickCeiling := by
  simp [Cfg.ceilingCovers, and_assoc]

/-- R8 (a) to (d), with (a) and (c) collected window by window. -/
theorem cfgWf_iff {c : Cfg} :
    c.wf = true ↔
      (∀ w ∈ [c.sm, c.sg, c.bm, c.s0, c.s1],
        1 ≤ w.min ∧ w.min ≤ w.max ∧ w.max ≤ c.tickCeiling) ∧
      c.s0.max < c.s1.min ∧ c.tickCeiling < 2 ^ c.tickW := by
  simp only [Cfg.wf, Bool.and_eq_true, windowsWf_iff, ceilingCovers_iff, Cfg.spacesDisjoint,
    Cfg.ceilingFits, decide_eq_true_eq]
  constructor
  · rintro ⟨⟨⟨hwin, hspaces⟩, hcover⟩, hfits⟩
    exact ⟨fun w hw => ⟨(hwin w hw).1, (hwin w hw).2, hcover w hw⟩, hspaces, hfits⟩
  · rintro ⟨hall, hspaces, hfits⟩
    exact ⟨⟨⟨fun w hw => ⟨(hall w hw).1, (hall w hw).2.1⟩, hspaces⟩,
      fun w hw => (hall w hw).2.2⟩, hfits⟩

/-! ## A step in a named state -/

/-- A step in a well-formed configuration neither stops nor leaves the five named states. -/
theorem step_total {s : State} (hw : s.cfg.wf = true) (hs : stateNamed s) :
    ∃ t, step s = .next t ∧ stateNamed t := by
  cases hn : nextEvent s with
  | none => exact ⟨passQuiet s, step_of_nextEvent_none hw hn, hs⟩
  | some p =>
    obtain ⟨ev, s'⟩ := p
    have hs' : stateNamed s' := stateNamed_of_nextEvent hs hn
    obtain ⟨t, ht⟩ := exec_isNext_of_wf (rowOf_wf hs' ev) s'
    exact ⟨t, (step_of_nextEvent_some hw hn).trans ht, exec_named hs' ht⟩

/-! ## The obligations -/

/-- Settles O33: a well-formed row always goes on, and the row of every event in a named state is
well formed. -/
theorem everyOperationIsTotal : Obligations.EveryOperationIsTotal := by
  unfold Obligations.EveryOperationIsTotal
  exact ⟨fun _ s hi => exec_isNext_of_wf hi s, fun _ hw hs => ⟨rowOf_wf hs, step_total hw hs⟩⟩

/-- Settles O30: R8 part by part, and the first test of a step. -/
theorem illFormedConfigIsRefused : Obligations.IllFormedConfigIsRefused := by
  unfold Obligations.IllFormedConfigIsRefused
  exact ⟨fun _ => cfgWf_iff, fun _ => step_of_illFormed⟩

/-- Settles O31: neither an empty list of inputs nor a quiet head yields an event, so the step is
`passQuiet`. -/
theorem nothingHappensWithoutRequest : Obligations.NothingHappensWithoutRequest := by
  unfold Obligations.NothingHappensWithoutRequest
  intro s hw
  constructor
  · intro h
    rw [step_of_nextEvent_none hw (nextEvent_of_inputs_nil h), passQuiet, h, List.tail_nil, ← h]
  · intro rest h
    rw [step_of_nextEvent_none hw (nextEvent_of_quiet h), passQuiet, h, List.tail_cons]

end Sys2Proof.Machine
end

section
/-! PROOF. The statements of 10_state.md: the reset values (R22), the invariants of reachable states
(R26 to R31), what each operation writes (R17, R18, R23, R24), and that the bits a buffer holds from
power-up are never seen (R25, U1). -/

namespace Sys2Proof.Machine

/-! ## What the invariants say of a state -/

theorem frameReady_of_edgeArmed {s : State} (h : Inv s) (ha : s.edgeArmed = true) :
    s.frameReady = false := by
  have harmed : s.edgeArmed = !s.frameReady := h.armed
  simpa [ha] using harmed

/-- R30 in every state: before the bits, and in Idle, BitIndex is 0 and the claim is empty. -/
theorem writtenBelow_bitIndex {s : State} (h : Inv s) : writtenBelow s.bitIndex.val s := by
  have of_zero : s.bitIndex = 0 → writtenBelow s.bitIndex.val s := by
    intro h0 i hi
    simp [h0] at hi
  obtain ⟨d, hd⟩ := h.named
  cases d with
  | idle => exact of_zero (h.idleCleared hd).2
  | awaitingStartLow => exact of_zero (h.index.1 (.inl hd))
  | awaitingFirstBitGap => exact of_zero (h.index.1 (.inr hd))
  | awaitingBitMark => exact h.index.2 (.inl hd)
  | awaitingBitSpace => exact h.index.2 (.inr hd)

/-- The model's own fields are in no invariant. -/
theorem inv_withOwn {s : State} (h : Inv s) (l : List Strobes) (r : Option Response) (k : Nat) :
    Inv { s with inputs := l, response := r, picks := k } :=
  { h with }

theorem inv_resetWith {c : Cfg} (p : Nat) (hc : c.wf = true) : Inv (State.resetWith c p) where
  cfgWf := hc
  memWf := rfl
  named := ⟨_, rfl⟩
  armed := rfl
  readyIdle := fun _ => rfl
  idleCleared := fun _ => ⟨rfl, rfl⟩
  bounded := Nat.zero_le _
  index := ⟨fun _ => rfl, fun hd => by simp at hd⟩
  readyFull := fun hr => by simp at hr

/-! ## Every shared operation keeps the invariants -/

theorem inv_abort {s : State} (h : Inv s) (c : AbortCause) : Inv (abort c s) :=
  { h with
    named := ⟨_, rfl⟩
    readyIdle := fun _ => rfl
    idleCleared := fun _ => ⟨rfl, rfl⟩
    bounded := Nat.zero_le _
    index := ⟨fun _ => rfl, fun hd => by simp at hd⟩ }

theorem inv_resetElements {s : State} (h : Inv s) : Inv (resetElements s) :=
  { h with
    named := ⟨_, rfl⟩
    armed := rfl
    readyIdle := fun _ => rfl
    idleCleared := fun _ => ⟨rfl, rfl⟩
    bounded := Nat.zero_le _
    index := ⟨fun _ => rfl, fun hd => by simp at hd⟩
    readyFull := fun hr => by simp at hr }

/-- Going on within a capture: the edge was armed, so no frame is ready (R26), and only the states
before the bits ask anything more of BitIndex (R30). -/
theorem inv_goTo_clearTick {s : State} {d : DecodeState} (h : Inv s) (ha : s.edgeArmed = true)
    (hd : d ≠ .idle)
    (h0 : d = .awaitingStartLow ∨ d = .awaitingFirstBitGap → s.bitIndex = 0) :
    Inv (goTo d (clearTick s)) :=
  have hw : writtenBelow s.bitIndex.val s := writtenBelow_bitIndex h
  { h with
    named := ⟨d, rfl⟩
    readyIdle := fun hr => by simp [frameReady_of_edgeArmed h ha] at hr
    idleCleared := fun hi => by simp [hd] at hi
    bounded := Nat.zero_le _
    index := ⟨fun hb => h0 (by simpa using hb), fun _ => hw⟩ }

theorem inv_tickRun {s : State} (h : Inv s) : Inv (tickRun s) := by
  rcases tickRun_cases s with ⟨-, e⟩ | ⟨-, -, e⟩ | ⟨hrun, hbelow, e⟩ <;> rw [e]
  · exact h
  · exact inv_abort h .timeout
  · exact { h with
      idleCleared := fun hi => absurd hi hrun
      bounded := hbelow }

theorem inv_startCapture {s : State} (h : Inv s) : Inv (startCapture s) := by
  rcases startCapture_cases s with ⟨-, e⟩ | ⟨ha, hi, e⟩
  · rw [e]
    exact h
  · have hb : s.bitIndex = 0 := (h.idleCleared hi).2
    have hgo : startCapture s = goTo .awaitingStartLow (clearTick s) := by
      simp [e, goTo, clearTick, hb]
    rw [hgo]
    exact inv_goTo_clearTick h ha (by simp) fun _ => hb

theorem inv_closeInterval {s : State} {here there : DecodeState} (w : Window) (h : Inv s)
    (hd : there ≠ .idle)
    (h0 : s.decodeState = .named here →
      there = .awaitingStartLow ∨ there = .awaitingFirstBitGap → s.bitIndex = 0) :
    Inv (closeInterval here w there s) := by
  rcases closeInterval_cases here w there s with ⟨-, e⟩ | ⟨ha, hs, -, e⟩ | ⟨-, -, -, e⟩ <;> rw [e]
  · exact h
  · exact inv_goTo_clearTick h ha hd (h0 hs)
  · exact inv_abort h .violation

/-- The write at slot 31 makes the buffer full, as R31 asks of a frame that is ready. -/
theorem inv_complete_bufWrite {s : State} (h : Inv s) (b : Bool) (h31 : s.bitIndex = 31) :
    Inv (complete (bufWrite s.bitIndex b s)) :=
  have hfull : writtenBelow 32 (bufWrite s.bitIndex b s) := by
    simpa [h31] using writtenBelow_bufWrite s s.bitIndex b (writtenBelow_bitIndex h)
  { h with
    memWf := wf_write s.frameBuffer s.bitIndex b h.memWf
    named := ⟨_, rfl⟩
    armed := rfl
    readyIdle := fun _ => rfl
    idleCleared := fun _ => ⟨rfl, rfl⟩
    bounded := Nat.zero_le _
    index := ⟨fun _ => rfl, fun hd => by simp at hd⟩
    readyFull := fun _ => hfull }

/-- Below slot 31 the index moves on to the slots just written (R30). -/
theorem inv_nextBit {s : State} (h : Inv s) (b : Bool) (ha : s.edgeArmed = true)
    (h31 : s.bitIndex ≠ 31) :
    Inv (goTo .awaitingBitMark
      { bufWrite s.bitIndex b (clearTick s) with bitIndex := s.bitIndex + 1 }) :=
  have hsucc : (s.bitIndex + 1).val = s.bitIndex.val + 1 :=
    Fin.val_add_one_of_lt (Fin.lt_last_iff_ne_last.mpr h31)
  have hnone : s.frameReady = false := frameReady_of_edgeArmed h ha
  { h with
    memWf := wf_write s.frameBuffer s.bitIndex b h.memWf
    named := ⟨_, rfl⟩
    readyIdle := fun hr => by simp [hnone] at hr
    idleCleared := fun hi => by simp at hi
    bounded := Nat.zero_le _
    index := ⟨fun hd => by simp at hd, fun _ => by
      have hw := writtenBelow_bufWrite s s.bitIndex b (writtenBelow_bitIndex h)
      rw [← hsucc] at hw
      exact hw⟩
    readyFull := fun hr => by simp [hnone] at hr }

theorem inv_closeBitSpace {s : State} (h : Inv s) : Inv (closeBitSpace s) := by
  rcases closeBitSpace_cases s with ⟨-, e⟩ | ⟨-, -, -, e⟩ | ⟨-, -, h31, b, -, e⟩ |
      ⟨ha, -, h31, b, -, e⟩ <;> rw [e]
  · exact h
  · exact inv_abort h .violation
  · exact inv_complete_bufWrite h b h31
  · exact inv_nextBit h b ha h31

theorem inv_answerEmpty {s : State} (h : Inv s) : Inv (answerEmpty s) := by
  rcases answerEmpty_cases s with ⟨-, e⟩ | ⟨-, e⟩ <;> rw [e]
  · exact h
  · exact inv_withOwn h _ _ _

theorem inv_consumeFrame {s : State} (h : Inv s) : Inv (consumeFrame s) := by
  rcases consumeFrame_cases s with ⟨-, e⟩ | ⟨-, e⟩ <;> rw [e]
  · exact h
  · exact { h with
      armed := rfl
      readyIdle := fun hr => by simp at hr
      readyFull := fun hr => by simp at hr }

/-! ## Every row, step and run keeps the invariants -/

theorem exec_keeps_inv {i : Instr} {s t : State} (h : Inv s) (hx : exec i s = .next t) :
    Inv t := by
  rcases exec_next_cases hx with ⟨-, rfl⟩ | ⟨-, rfl⟩ | ⟨-, rfl⟩ |
      (⟨-, rfl⟩ | ⟨-, rfl⟩ | ⟨-, rfl⟩) | ⟨-, rfl⟩ | ⟨-, rfl⟩ | ⟨-, rfl⟩ | ⟨-, rfl⟩
  · exact h
  · exact inv_tickRun h
  · exact inv_startCapture h
  · exact inv_closeInterval _ h (by simp) fun hs _ => h.index.1 (.inl hs)
  · exact inv_closeInterval _ h (by simp) (by simp)
  · exact inv_closeInterval _ h (by simp) (by simp)
  · exact inv_closeBitSpace h
  · exact inv_answerEmpty h
  · exact inv_consumeFrame h
  · exact inv_resetElements h

theorem inv_of_nextEvent {s s' : State} {ev : Event} (h : Inv s)
    (hn : nextEvent s = some (ev, s')) : Inv s' := by
  rw [nextEvent_frame hn]
  exact inv_withOwn h _ _ _

theorem step_keeps_inv {s t : State} (h : Inv s) (hs : step s = .next t) : Inv t := by
  obtain ⟨-, ⟨-, rfl⟩ | ⟨ev, s', hn, hx⟩⟩ := step_next_cases hs
  · exact inv_withOwn h _ _ _
  · exact exec_keeps_inv (inv_of_nextEvent h hn) hx

/-- A run from a state that meets the invariants never stops and keeps them. -/
theorem run_of_inv {s : State} (h : Inv s) (n : Nat) :
    ∃ t, Sys2Proof.core.run n s = .next t ∧ Inv t := by
  induction n generalizing s with
  | zero => exact ⟨s, rfl, h⟩
  | succ n ih =>
    obtain ⟨u, hu, -⟩ := step_total h.cfgWf h.named
    obtain ⟨t, ht, hinv⟩ := ih (step_keeps_inv h hu)
    exact ⟨t, (run_succ_of_next hu).trans ht, hinv⟩

/-- Settles O35: row by row, from one lemma for each shared operation. -/
theorem stepKeepsInvariants : Obligations.StepKeepsInvariants := by
  unfold Obligations.StepKeepsInvariants
  exact fun _ _ => step_keeps_inv

/-- Settles O3: `State.reset` is the reset state of CFG_50 at power-up 0. -/
theorem resetSatisfiesInvariants : Obligations.ResetSatisfiesInvariants := by
  unfold Obligations.ResetSatisfiesInvariants
  have hfifty : Cfg.fifty.wf = true := by decide
  exact ⟨fun _ p hc => inv_resetWith p hc, inv_resetWith 0 hfifty, Cfg.fifty, 0, hfifty, rfl⟩

/-- Settles O36: the reset state meets the invariants, whatever is requested, and runs keep them. -/
theorem runsFromResetMeetInvariants : Obligations.RunsFromResetMeetInvariants := by
  unfold Obligations.RunsFromResetMeetInvariants
  exact fun n _ p rs hc => run_of_inv (inv_withOwn (inv_resetWith p hc) rs none 0) n

/-! ## The power-up number, which picks the bits of slots never written -/

/-- The bytes of a full buffer are read from written slots alone. -/
theorem byteAt_withPowerUp {s : State} {k : Nat} (h : writtenBelow 32 s) (hk : k < 4) (p : Nat) :
    byteAt { s with powerUp := p } k = byteAt s k := by
  have hslots : slots { s with powerUp := p } (8 * k) 8 = slots s (8 * k) 8 := by
    refine List.map_congr_left fun i hi => slot_of_written h ?_ p
    have : i < 8 := List.mem_range.mp hi
    omega
  rw [byteAt, hslots, byteAt]

theorem bufferResult_withPowerUp {s : State} (h : writtenBelow 32 s) (p : Nat) :
    bufferResult { s with powerUp := p } = bufferResult s := by
  simp [bufferResult, byteAt_withPowerUp h]

theorem consumeFrame_withPowerUp {s : State} (h : Inv s) (p : Nat) :
    consumeFrame { s with powerUp := p } = { consumeFrame s with powerUp := p } := by
  by_cases hr : s.frameReady = true
  · have hsame := bufferResult_withPowerUp (h.readyFull hr) p
    rw [consumeFrame, consumeFrame, if_pos hr, if_pos hr, hsame]
  · simp [consumeFrame, hr]

theorem tickRun_withPowerUp (s : State) (p : Nat) :
    tickRun { s with powerUp := p } = { tickRun s with powerUp := p } := by
  by_cases hi : s.decodeState = .named .idle
  · simp [tickRun, hi]
  · by_cases hc : s.cfg.tickCeiling ≤ s.tickCount <;> simp [tickRun, atCeiling, abort, hi, hc]

theorem startCapture_withPowerUp (s : State) (p : Nat) :
    startCapture { s with powerUp := p } = { startCapture s with powerUp := p } := by
  simp only [startCapture]
  split_ifs <;> rfl

theorem closeInterval_withPowerUp (here : DecodeState) (w : Window) (there : DecodeState)
    (s : State) (p : Nat) :
    closeInterval here w there { s with powerUp := p } =
      { closeInterval here w there s with powerUp := p } := by
  by_cases hg : s.edgeArmed = true ∧ s.decodeState = .named here
  · cases hw : inw s.tickCount w <;> simp [closeInterval, abort, goTo, clearTick, hg, hw]
  · simp [closeInterval, hg]

theorem closeBitSpace_withPowerUp (s : State) (p : Nat) :
    closeBitSpace { s with powerUp := p } = { closeBitSpace s with powerUp := p } := by
  by_cases hg : s.edgeArmed = true ∧ s.decodeState = .named .awaitingBitSpace
  · cases hc : classifySpace s.cfg s.tickCount with
    | violation => simp [closeBitSpace, abort, clearTick, hg, hc]
    | bit b =>
      by_cases h31 : s.bitIndex = 31 <;>
        simp [closeBitSpace, storeBit, complete, goTo, bufWrite, clearTick, hg, hc, h31]
  · simp [closeBitSpace, hg]

theorem answerEmpty_withPowerUp (s : State) (p : Nat) :
    answerEmpty { s with powerUp := p } = { answerEmpty s with powerUp := p } := by
  simp only [answerEmpty]
  split_ifs <;> rfl

/-- Two states that differ in the power-up only take the same row to such states again: RECV.READY
alone reads the buffer, and it does so when every slot has been written (R31). -/
theorem exec_withPowerUp {i : Instr} {s t : State} (h : Inv s) (p : Nat)
    (hx : exec i s = .next t) :
    exec i { s with powerUp := p } = .next { t with powerUp := p } := by
  rcases exec_next_cases hx with ⟨hi, rfl⟩ | ⟨hi, rfl⟩ | ⟨rfl, rfl⟩ |
      (⟨rfl, rfl⟩ | ⟨rfl, rfl⟩ | ⟨rfl, rfl⟩) | ⟨rfl, rfl⟩ | ⟨rfl, rfl⟩ | ⟨rfl, rfl⟩ | ⟨rfl, rfl⟩
  · simp only [List.mem_cons, List.not_mem_nil, or_false] at hi
    rcases hi with rfl | rfl <;> rfl
  · rw [← tickRun_withPowerUp]
    simp only [List.mem_cons, List.not_mem_nil, or_false] at hi
    rcases hi with rfl | rfl | rfl | rfl <;> rfl
  · exact congrArg Host.Outcome.next (startCapture_withPowerUp s p)
  iterate 3 exact congrArg Host.Outcome.next (closeInterval_withPowerUp _ _ _ s p)
  · exact congrArg Host.Outcome.next (closeBitSpace_withPowerUp s p)
  · exact congrArg Host.Outcome.next (answerEmpty_withPowerUp s p)
  · exact congrArg Host.Outcome.next (consumeFrame_withPowerUp h p)
  · rfl

theorem nextEvent_withPowerUp (s : State) (p : Nat) :
    nextEvent { s with powerUp := p } =
      (nextEvent s).map fun e => (e.1, { e.2 with powerUp := p }) := by
  simp only [nextEvent]
  cases s.inputs with
  | nil => rfl
  | cons r rest =>
    by_cases hr : r.rst = true
    · simp [hr]
    · rcases he : r.events with - | ⟨ev, - | ⟨ev', evs⟩⟩ <;> simp [hr, he]

theorem step_withPowerUp {s t : State} (h : Inv s) (p : Nat) (hs : step s = .next t) :
    step { s with powerUp := p } = .next { t with powerUp := p } := by
  obtain ⟨hw, ⟨hn, rfl⟩ | ⟨ev, s', hn, hx⟩⟩ := step_next_cases hs
  · exact step_of_nextEvent_none (s := { s with powerUp := p }) hw
      (by simp [nextEvent_withPowerUp, hn])
  · have hn' : nextEvent { s with powerUp := p } = some (ev, { s' with powerUp := p }) := by
      simp [nextEvent_withPowerUp, hn]
    exact (step_of_nextEvent_some (s := { s with powerUp := p }) hw hn').trans
      (exec_withPowerUp (inv_of_nextEvent h hn) p hx)

/-- Two runs whose states differ in the power-up only stay so, the invariants kept along the way. -/
theorem run_withPowerUp {s t : State} (n p : Nat) (h : Inv s)
    (ht : Sys2Proof.core.run n s = .next t) :
    Sys2Proof.core.run n { s with powerUp := p } = .next { t with powerUp := p } := by
  induction n generalizing s with
  | zero =>
    cases ht
    rfl
  | succ n ih =>
    obtain ⟨u, hu, -⟩ := step_total h.cfgWf h.named
    rw [run_succ_of_next hu] at ht
    rw [run_succ_of_next (step_withPowerUp h p hu)]
    exact ih (step_keeps_inv h hu) ht

/-- Settles O46: the one row that reads the buffer runs when every slot has been written. -/
theorem unwrittenSlotsAreNeverSeen : Obligations.UnwrittenSlotsAreNeverSeen := by
  unfold Obligations.UnwrittenSlotsAreNeverSeen
  exact fun n p _ _ h ht => run_withPowerUp n p h ht

/-! ## What each kind of event writes -/

theorem tryReceive_next_cases {s t : State} (h : exec (rowOf .tryReceive s) s = .next t) :
    (s.frameReady = true ∧ t = consumeFrame s) ∨
      (s.frameReady = false ∧ t = answerEmpty s) := by
  simpa using rowOf_next_cases h

theorem reset_next_eq {s t : State} (h : exec (rowOf .reset s) s = .next t) :
    t = resetElements s := by
  simpa using rowOf_next_cases h

theorem tick_frame {s t : State} (h : exec (rowOf .tick s) s = .next t) :
    t = { s with
      tickCount := t.tickCount, decodeState := t.decodeState, bitIndex := t.bitIndex } := by
  have ht : t = tickRun s := by simpa using rowOf_next_cases h
  subst ht
  rcases tickRun_cases s with ⟨-, e⟩ | ⟨-, -, e⟩ | ⟨-, -, e⟩ <;> rw [e]
  rfl

theorem edge_frame {s t : State} (h : exec (rowOf .edge s) s = .next t) :
    t = { s with
      tickCount := t.tickCount, decodeState := t.decodeState, bitIndex := t.bitIndex,
      frameBuffer := t.frameBuffer, frameReady := t.frameReady, edgeArmed := t.edgeArmed } := by
  have hcases := rowOf_next_cases h
  simp only [reduceCtorEq, false_and, true_and, false_or] at hcases
  rcases hcases with ⟨-, rfl⟩ | ⟨-, ⟨-, rfl⟩ | ⟨-, rfl⟩ | ⟨-, rfl⟩ | ⟨-, rfl⟩ | ⟨-, rfl⟩⟩
  · rfl
  · rcases startCapture_cases s with ⟨-, e⟩ | ⟨-, -, e⟩ <;> rw [e]
  iterate 3
    · rcases closeInterval_cases _ _ _ s with ⟨-, e⟩ | ⟨-, -, -, e⟩ | ⟨-, -, -, e⟩ <;>
        rw [e] <;> rfl
  · rcases closeBitSpace_cases s with ⟨-, e⟩ | ⟨-, -, -, e⟩ | ⟨-, -, -, b, -, e⟩ |
        ⟨-, -, -, b, -, e⟩ <;> rw [e] <;> rfl

theorem tryReceive_frame {s t : State} (h : exec (rowOf .tryReceive s) s = .next t) :
    t = { s with
      frameReady := t.frameReady, edgeArmed := t.edgeArmed, response := t.response } := by
  rcases tryReceive_next_cases h with ⟨-, rfl⟩ | ⟨-, rfl⟩
  · rcases consumeFrame_cases s with ⟨-, e⟩ | ⟨-, e⟩ <;> rw [e]
  · rcases answerEmpty_cases s with ⟨-, e⟩ | ⟨-, e⟩ <;> rw [e]

theorem reset_frame {s t : State} (h : exec (rowOf .reset s) s = .next t) :
    t = { s with
      tickCount := t.tickCount, decodeState := t.decodeState, bitIndex := t.bitIndex,
      frameReady := t.frameReady, edgeArmed := t.edgeArmed } := by
  rw [reset_next_eq h]
  rfl

/-- Settles O38: one frame for each kind of event. -/
theorem operationsWriteOnlyTheirElements : Obligations.OperationsWriteOnlyTheirElements := by
  unfold Obligations.OperationsWriteOnlyTheirElements
  intro ev s t h
  refine ⟨?_, ?_, ?_, ?_⟩ <;> rintro rfl
  · exact tick_frame h
  · exact edge_frame h
  · exact tryReceive_frame h
  · exact reset_frame h

/-! ## FrameReady and EdgeArmed -/

/-- An EDGE in `s` would write the 32nd bit (41_frame_fsm.md R88). -/
def completesCapture (s : State) : Prop :=
  s.edgeArmed = true ∧ s.decodeState = .named .awaitingBitSpace ∧ s.bitIndex.val = 31 ∧
    (inw s.tickCount s.cfg.s0 = true ∨ inw s.tickCount s.cfg.s1 = true)

theorem inw_of_classifySpace_bit {c : Cfg} {e : Nat} {b : Bool}
    (h : classifySpace c e = .bit b) : inw e c.s0 = true ∨ inw e c.s1 = true := by
  rcases classifySpace_cases c e with ⟨-, h0⟩ | ⟨-, -, h1⟩ | ⟨hv, -, -⟩
  · exact .inl h0
  · exact .inr h1
  · simp [hv] at h

theorem edge_flags {s t : State} (h : exec (rowOf .edge s) s = .next t) :
    (t.frameReady = s.frameReady ∧ t.edgeArmed = s.edgeArmed) ∨
      (completesCapture s ∧ t.frameReady = true ∧ t.edgeArmed = false) := by
  have hcases := rowOf_next_cases h
  simp only [reduceCtorEq, false_and, true_and, false_or] at hcases
  rcases hcases with ⟨-, rfl⟩ | ⟨-, ⟨-, rfl⟩ | ⟨-, rfl⟩ | ⟨-, rfl⟩ | ⟨-, rfl⟩ | ⟨-, rfl⟩⟩
  · exact .inl ⟨rfl, rfl⟩
  · rcases startCapture_cases s with ⟨-, e⟩ | ⟨-, -, e⟩ <;> rw [e] <;> exact .inl ⟨rfl, rfl⟩
  iterate 3
    · rcases closeInterval_cases _ _ _ s with ⟨-, e⟩ | ⟨-, -, -, e⟩ | ⟨-, -, -, e⟩ <;>
        rw [e] <;> exact .inl ⟨rfl, rfl⟩
  · rcases closeBitSpace_cases s with ⟨-, e⟩ | ⟨-, -, -, e⟩ | ⟨ha, hs, h31, b, hb, e⟩ |
        ⟨-, -, -, b, -, e⟩ <;> rw [e]
    · exact .inl ⟨rfl, rfl⟩
    · exact .inl ⟨rfl, rfl⟩
    · exact .inr ⟨⟨ha, hs, congrArg Fin.val h31, inw_of_classifySpace_bit hb⟩, rfl, rfl⟩
    · exact .inl ⟨rfl, rfl⟩

/-- Everything an event can do to FrameReady and EdgeArmed: they move together, and by three causes
only (R17, R18). -/
theorem flags_cases {ev : Event} {s t : State} (h : exec (rowOf ev s) s = .next t) :
    (t.frameReady = s.frameReady ∧ t.edgeArmed = s.edgeArmed) ∨
      (ev = .edge ∧ completesCapture s ∧ t.frameReady = true ∧ t.edgeArmed = false) ∨
      (ev = .tryReceive ∧ s.frameReady = true ∧ t.frameReady = false ∧ t.edgeArmed = true) ∨
      (ev = .reset ∧ t.frameReady = false ∧ t.edgeArmed = true) := by
  cases ev with
  | tick =>
    rw [tick_frame h]
    exact .inl ⟨rfl, rfl⟩
  | edge => simpa using edge_flags h
  | tryReceive =>
    rcases tryReceive_next_cases h with ⟨hr, rfl⟩ | ⟨hr, rfl⟩
    · exact .inr (.inr (.inl ⟨rfl, hr, by simp [consumeFrame, hr]⟩))
    · exact .inl (by simp [answerEmpty, hr])
  | reset => exact .inr (.inr (.inr ⟨rfl, by simp [reset_next_eq h]⟩))

/-- Settles O41: each clause excludes all causes but its own. -/
theorem whoSetsReadyAndArmed : Obligations.WhoSetsReadyAndArmed := by
  unfold Obligations.WhoSetsReadyAndArmed
  intro ev s t h
  rcases flags_cases h with ⟨hr, ha⟩ | ⟨rfl, ⟨hon, hs, h31, hbit⟩, hr, ha⟩ |
      ⟨rfl, hready, hr, ha⟩ | ⟨rfl, hr, ha⟩
  · simp +contextual [hr, ha]
  · simp [hr, ha, hon, hs, h31, hbit]
  · simp [hr, ha, hready]
  · simp [hr, ha]

/-! ## The end of a capture, and RESET -/

/-- Settles O42: a row that leaves a capture for Idle is an abort, a completion or RESET. -/
theorem endOfCaptureClearsCounters : Obligations.EndOfCaptureClearsCounters := by
  unfold Obligations.EndOfCaptureClearsCounters
  intro i s t hx hs ht
  rcases exec_next_cases hx with ⟨-, rfl⟩ | ⟨-, rfl⟩ | ⟨-, rfl⟩ |
      (⟨-, rfl⟩ | ⟨-, rfl⟩ | ⟨-, rfl⟩) | ⟨-, rfl⟩ | ⟨-, rfl⟩ | ⟨-, rfl⟩ | ⟨-, rfl⟩
  · exact absurd ht hs
  · rcases tickRun_cases s with ⟨-, e⟩ | ⟨-, -, e⟩ | ⟨-, -, e⟩ <;> rw [e] at ht ⊢
    · exact absurd ht hs
    · exact ⟨rfl, rfl⟩
    · exact absurd ht hs
  · rcases startCapture_cases s with ⟨-, e⟩ | ⟨-, hi, -⟩
    · exact absurd (e ▸ ht) hs
    · exact absurd hi hs
  iterate 3
    · rcases closeInterval_cases _ _ _ s with ⟨-, e⟩ | ⟨-, -, -, e⟩ | ⟨-, -, -, e⟩ <;>
        rw [e] at ht ⊢
      · exact absurd ht hs
      · simp at ht
      · exact ⟨rfl, rfl⟩
  · rcases closeBitSpace_cases s with ⟨-, e⟩ | ⟨-, -, -, e⟩ | ⟨-, -, -, b, -, e⟩ |
        ⟨-, -, -, b, -, e⟩ <;> rw [e] at ht ⊢
    · exact absurd ht hs
    · exact ⟨rfl, rfl⟩
    · exact ⟨rfl, rfl⟩
    · simp at ht
  · rcases answerEmpty_cases s with ⟨-, e⟩ | ⟨-, e⟩ <;> rw [e] at ht <;> exact absurd ht hs
  · rcases consumeFrame_cases s with ⟨-, e⟩ | ⟨-, e⟩ <;> rw [e] at ht <;> exact absurd ht hs
  · exact ⟨rfl, rfl⟩

theorem timerRun_of_idle {s : State} (h : s.decodeState = .named .idle) : timerRun s = false := by
  simp [timerRun, h]

/-- Settles O2: RESET runs `resetElements`, and a run starts in `State.resetWith`. -/
theorem stateAfterReset : Obligations.StateAfterReset := by
  unfold Obligations.StateAfterReset
  constructor
  · intro s
    exact ⟨resetElements s, rfl, rfl, rfl, rfl, rfl, rfl, timerRun_of_idle rfl, rfl⟩
  · intro c p
    exact ⟨rfl, rfl, rfl, rfl, rfl, timerRun_of_idle rfl, fun _ => rfl⟩

end Sys2Proof.Machine
end

section
/-! PROOF. The statements of 20_memory.md: the word and byte views of the buffer (R38, R39), its
only write (R36), the constants (R50), and the frame that nobody reads (R46(b)). -/

namespace Sys2Proof.Machine

/-! ## FrameWord and its bytes -/

theorem byteAt_eq_extractLsb' (s : State) {k : Nat} (hk : k < 4) :
    byteAt s k = (frameWord s).extractLsb' (8 * k) 8 := by
  refine BitVec.eq_of_getLsbD_eq fun i hi => ?_
  have hslot : 8 * k + i < 32 := by omega
  rw [getLsbD_byteAt s k i hi, BitVec.getLsbD_extractLsb', getLsbD_frameWord s _ hslot]
  simp [hi]

/-- A word is its four bytes, the least significant last. -/
theorem bytes_append (w : BitVec 32) :
    w = w.extractLsb' 24 8 ++ (w.extractLsb' 16 8 ++ (w.extractLsb' 8 8 ++ w.extractLsb' 0 8)) := by
  rw [BitVec.extractLsb'_append_extractLsb'_eq_extractLsb' (show 8 = 0 + 8 from rfl),
    BitVec.extractLsb'_append_extractLsb'_eq_extractLsb' (show 16 = 0 + (8 + 8) from rfl),
    BitVec.extractLsb'_append_extractLsb'_eq_extractLsb' (show 24 = 0 + (8 + (8 + 8)) from rfl)]
  exact BitVec.extractLsb'_eq_self.symm

/-- Settles O21: the bytes are the fields of FrameWord, bit by bit, and a word is its four bytes. -/
theorem frameWordIsLittleEndian : Obligations.FrameWordIsLittleEndian := by
  unfold Obligations.FrameWordIsLittleEndian
  intro s
  refine ⟨fun i hi => getLsbD_frameWord s i hi, ?_, fun k hk => byteAt_eq_extractLsb' s hk⟩
  simp only [byteAt_eq_extractLsb' s, Nat.reduceLT]
  exact bytes_append (frameWord s)

/-! ## CFG and the power-up number -/

theorem step_keeps_config {s t : State} (h : step s = .next t) :
    t.cfg = s.cfg ∧ t.powerUp = s.powerUp := by
  obtain ⟨-, ⟨-, rfl⟩ | ⟨ev, s', hn, hx⟩⟩ := step_next_cases h
  · exact ⟨rfl, rfl⟩
  · obtain ⟨hcfg, hpower, -, -⟩ := exec_frame hx
    rw [hcfg, hpower, nextEvent_frame hn]
    exact ⟨rfl, rfl⟩

/-- A run that goes on takes a step that goes on, and runs from there. -/
theorem run_succ_next_cases {n : Nat} {s t : State} (h : Sys2Proof.core.run (n + 1) s = .next t) :
    ∃ u, step s = .next u ∧ Sys2Proof.core.run n u = .next t := by
  cases hs : step s with
  | next u => exact ⟨u, rfl, (run_succ_of_next hs).symm.trans h⟩
  | fault r => cases r
  | refused r =>
    rw [run_succ_of_refused hs] at h
    cases h

/-- Settles O39: no row writes CFG or the power-up number, and so no step and no run does. -/
theorem configNeverChanges : Obligations.ConfigNeverChanges := by
  unfold Obligations.ConfigNeverChanges
  intro n s t h
  induction n generalizing s with
  | zero =>
    cases h
    exact ⟨rfl, rfl⟩
  | succ n ih =>
    obtain ⟨u, hu, ht⟩ := run_succ_next_cases h
    obtain ⟨hcfg, hpower⟩ := step_keeps_config hu
    obtain ⟨hcfg', hpower'⟩ := ih u ht
    exact ⟨hcfg'.trans hcfg, hpower'.trans hpower⟩

/-! ## Who writes the buffer -/

/-- Everything an EDGE.BIT_SPACE can do to the buffer: one BufWrite at BitIndex, or nothing. -/
theorem closeBitSpace_frameBuffer (s : State) :
    (closeBitSpace s).frameBuffer = s.frameBuffer ∨
      ∃ b, (closeBitSpace s).frameBuffer = Mem.write s.frameBuffer s.bitIndex.val b := by
  rcases closeBitSpace_cases s with ⟨-, e⟩ | ⟨-, -, -, e⟩ | ⟨-, -, -, b, -, e⟩ |
      ⟨-, -, -, b, -, e⟩ <;> rw [e]
  · exact .inl rfl
  · exact .inl rfl
  · exact .inr ⟨b, rfl⟩
  · exact .inr ⟨b, rfl⟩

/-- Everything a row can do to the buffer (20_memory.md R36). -/
theorem frameBuffer_cases {i : Instr} {s t : State} (h : exec i s = .next t) :
    t.frameBuffer = s.frameBuffer ∨
      (i = .edgeBitSpace ∧ ∃ b, t.frameBuffer = Mem.write s.frameBuffer s.bitIndex.val b) := by
  rcases exec_next_cases h with ⟨-, rfl⟩ | ⟨-, rfl⟩ | ⟨-, rfl⟩ |
      (⟨-, rfl⟩ | ⟨-, rfl⟩ | ⟨-, rfl⟩) | ⟨hi, rfl⟩ | ⟨-, rfl⟩ | ⟨-, rfl⟩ | ⟨-, rfl⟩
  · exact .inl rfl
  · rcases tickRun_cases s with ⟨-, e⟩ | ⟨-, -, e⟩ | ⟨-, -, e⟩ <;> rw [e] <;> exact .inl rfl
  · rcases startCapture_cases s with ⟨-, e⟩ | ⟨-, -, e⟩ <;> rw [e] <;> exact .inl rfl
  iterate 3
    · rcases closeInterval_cases _ _ _ s with ⟨-, e⟩ | ⟨-, -, -, e⟩ | ⟨-, -, -, e⟩ <;>
        rw [e] <;> exact .inl rfl
  · exact (closeBitSpace_frameBuffer s).imp_right fun hw => ⟨hi, hw⟩
  · rcases answerEmpty_cases s with ⟨-, e⟩ | ⟨-, e⟩ <;> rw [e] <;> exact .inl rfl
  · rcases consumeFrame_cases s with ⟨-, e⟩ | ⟨-, e⟩ <;> rw [e] <;> exact .inl rfl
  · exact .inl rfl

/-- Settles O40: a row leaves the buffer alone, or is EDGE.BIT_SPACE and writes slot BitIndex. -/
theorem onlyBitSpaceWritesBuffer : Obligations.OnlyBitSpaceWritesBuffer := by
  unfold Obligations.OnlyBitSpaceWritesBuffer
  refine ⟨fun i b s => ⟨?_, fun a ha => ?_, rfl⟩, fun i s t h => ?_⟩
  · exact read_write_same s.frameBuffer i.val b
  · exact read_write_other s.frameBuffer b ha
  · rcases frameBuffer_cases h with hsame | ⟨hi, b, hwrite⟩
    · exact ⟨fun _ => hsame, fun a _ => by rw [hsame]⟩
    · refine ⟨fun hne => absurd hi hne, fun a ha => ?_⟩
      rw [hwrite]
      exact read_write_other s.frameBuffer b ha

/-! ## A frame that is not read -/

/-- The environment asks for neither a RESET nor a TRY_RECEIVE. -/
def neverReadOrReset (s : State) : Prop := ∀ r ∈ s.inputs, r.rst = false ∧ r.rd = false

/-- Everything taking an event can do: RESET drops what coincides with it; any other event is one of
those requested, and its request, or all of them, leave the inputs (30_encoding.md R62). -/
theorem nextEvent_cases {s s' : State} {ev : Event} (h : nextEvent s = some (ev, s')) :
    ∃ r rest, s.inputs = r :: rest ∧
      ((r.rst = true ∧ ev = .reset ∧ s'.inputs = rest) ∨
        (r.rst = false ∧ ev ∈ r.events ∧
          (s'.inputs = rest ∨ s'.inputs = r.drop ev :: rest))) := by
  unfold nextEvent at h
  split at h
  · cases h
  · next r rest hin =>
    refine ⟨r, rest, hin, ?_⟩
    split at h
    · next hr =>
      cases h
      exact .inl ⟨hr, rfl, rfl⟩
    · next hr =>
      refine .inr ⟨by simpa using hr, ?_⟩
      split at h
      · cases h
      · next ev' he =>
        cases h
        exact ⟨by simp [he], .inl rfl⟩
      · next ev' evs _ he =>
        cases h
        have hlt : Config.coincidentOrder s.picks % (evs.length + 1) < (ev' :: evs).length :=
          Nat.mod_lt _ (Nat.succ_pos _)
        refine ⟨?_, .inr rfl⟩
        rw [he, List.getD_eq_getElem _ _ hlt]
        exact List.getElem_mem _

/-- Without RESET and TRY_RECEIVE among the requests the event is a TICK or an EDGE, and the inputs
still ask for neither. -/
theorem neverReadOrReset_of_nextEvent {s s' : State} {ev : Event} (hq : neverReadOrReset s)
    (h : nextEvent s = some (ev, s')) : (ev = .tick ∨ ev = .edge) ∧ neverReadOrReset s' := by
  obtain ⟨r, rest, hin, hcases⟩ := nextEvent_cases h
  rw [neverReadOrReset, hin, List.forall_mem_cons] at hq
  obtain ⟨⟨hrst, hrd⟩, hrest⟩ := hq
  rcases hcases with ⟨hr, -, -⟩ | ⟨-, hmem, hin'⟩
  · simp [hrst] at hr
  · have hev : ev = .tick ∨ ev = .edge := by
      cases ev <;> simp [Strobes.events, hrd] at hmem ⊢
    refine ⟨hev, ?_⟩
    rcases hin' with e | e <;> rw [neverReadOrReset, e]
    · exact hrest
    · refine List.forall_mem_cons.mpr ⟨?_, hrest⟩
      rcases hev with rfl | rfl <;> exact ⟨hrst, hrd⟩

/-- While a frame is ready the block is in Idle with the edge source disarmed (R26, R27): a TICK
does nothing there, and an EDGE is dropped. -/
theorem exec_of_frameReady {s : State} {ev : Event} (h : Inv s) (hr : s.frameReady = true)
    (hev : ev = .tick ∨ ev = .edge) : exec (rowOf ev s) s = .next s := by
  have hidle : s.decodeState = .named .idle := h.readyIdle hr
  have hmasked : s.edgeArmed = false := h.armed.trans (congrArg Bool.not hr)
  rcases hev with rfl | rfl <;> rw [rowOf_eq]
  · rw [hidle]
    rfl
  · rw [hmasked]
    rfl

/-- One step keeps an unread frame and all else but the model's own fields. -/
theorem step_of_frameReady {s : State} (h : Inv s) (hr : s.frameReady = true)
    (hq : neverReadOrReset s) :
    ∃ t, step s = .next t ∧
      t = { s with inputs := t.inputs, response := t.response, picks := t.picks } ∧
      neverReadOrReset t := by
  cases hn : nextEvent s with
  | none =>
    exact ⟨passQuiet s, step_of_nextEvent_none h.cfgWf hn, rfl,
      fun r hmem => hq r (List.mem_of_mem_tail hmem)⟩
  | some p =>
    obtain ⟨ev, s'⟩ := p
    have hframe := nextEvent_frame hn
    have hr' : s'.frameReady = true := by rw [hframe]; exact hr
    obtain ⟨hev, hq'⟩ := neverReadOrReset_of_nextEvent hq hn
    exact ⟨s', (step_of_nextEvent_some h.cfgWf hn).trans
      (exec_of_frameReady (inv_of_nextEvent h hn) hr' hev), hframe, hq'⟩

/-- Settles O45: each step keeps the frame ready, the invariants, and the requests without RESET and
TRY_RECEIVE. -/
theorem unreadFrameIsKept : Obligations.UnreadFrameIsKept := by
  unfold Obligations.UnreadFrameIsKept
  intro n s h hr hq
  induction n generalizing s with
  | zero => exact ⟨s, rfl, rfl⟩
  | succ n ih =>
    obtain ⟨u, hstep, hframe, hq'⟩ := step_of_frameReady h hr hq
    have hr' : u.frameReady = true := by rw [hframe]; exact hr
    obtain ⟨t, hrun, hkept⟩ := ih u (step_keeps_inv h hstep) hr' hq'
    exact ⟨t, (run_succ_of_next hstep).trans hrun, hkept.trans (by rw [hframe])⟩

end Sys2Proof.Machine
end

section
/-! PROOF. The statements of 30_encoding.md: the dispatch word, its rows and their encoding (R61, R64,
R65), the rows that change nothing (R68), coincident requests (R62), and the length of a frame
(R52). -/

namespace Sys2Proof.Machine

/-! ## Coincident requests (R62)

One step takes one of the requests and leaves the others at the head of the inputs. So the order is
built from the front: the request just taken, then the order of those left. -/

theorem eq_only_of_events_singleton {r : Strobes} {ev : Event} (hr : r.rst = false)
    (he : r.events = [ev]) : r = Strobes.only ev := by
  obtain ⟨rst, tick, edge, rd⟩ := r
  obtain rfl : rst = false := hr
  cases tick <;> cases edge <;> cases rd <;> cases he <;> rfl

/-- The requests are the one taken and those left. -/
theorem perm_cons_events_drop {r : Strobes} {ev : Event} (h : ev ∈ r.events) :
    (ev :: (r.drop ev).events).Perm r.events := by
  obtain ⟨rst, tick, edge, rd⟩ := r
  cases ev with
  | tick =>
    obtain rfl : tick = true := by simpa [Strobes.events] using h
    exact .refl _
  | edge =>
    obtain rfl : edge = true := by simpa [Strobes.events] using h
    exact List.perm_middle.symm.append_right _
  | tryReceive =>
    obtain rfl : rd = true := by simpa [Strobes.events] using h
    exact (List.perm_middle (l₂ := [])).symm
  | reset => simp [Strobes.events] at h

theorem drop_rst {r : Strobes} (ev : Event) (hr : r.rst = false) : (r.drop ev).rst = false := by
  cases ev <;> simp [Strobes.drop, hr]

/-- Where requests coincide, one of them is taken and the others stay at the head of the inputs. -/
theorem nextEvent_of_coincidence {s : State} {r : Strobes} {rest : List Strobes}
    (hin : s.inputs = r :: rest) (hr : r.rst = false) (h2 : 2 ≤ r.events.length) :
    ∃ ev ∈ r.events, nextEvent s = some (ev,
      { s with inputs := r.drop ev :: rest, response := none, picks := s.picks + 1 }) := by
  rcases he : r.events with - | ⟨a, - | ⟨b, evs⟩⟩
  · simp [he] at h2
  · simp [he] at h2
  · have hlt : Config.coincidentOrder s.picks % ((b :: evs).length + 1) < (a :: b :: evs).length :=
      Nat.mod_lt _ (Nat.succ_pos _)
    refine ⟨(a :: b :: evs)[_]'hlt, List.getElem_mem hlt, ?_⟩
    rw [← List.getD_eq_getElem _ a hlt]
    simp [nextEvent, hin, hr, he]

/-- A row that is refused is refused in every state. -/
theorem exec_refused_of {i : Instr} {s : State} {e : Refusal} (h : exec i s = .refused e)
    (t : State) : exec i t = .refused e := by
  cases i <;> cases h <;> rfl

/-- The run over requests of one time is a run in which they arrive one at a time. -/
theorem run_coincident {n : Nat} {s : State} {r : Strobes} {rest : List Strobes}
    (hw : s.cfg.wf = true) (hin : s.inputs = r :: rest) (hr : r.rst = false)
    (hn : r.events.length = n + 1) :
    ∃ es : List Event, es.Perm r.events ∧
      Sys2Proof.core.run (n + 1) s = Sys2Proof.core.run (n + 1)
        { s with inputs := es.map Strobes.only ++ rest, picks := s.picks + n } := by
  induction n generalizing s r with
  | zero =>
    obtain ⟨ev, he⟩ := List.length_eq_one_iff.mp hn
    have hsame : { s with inputs := [ev].map Strobes.only ++ rest, picks := s.picks + 0 } = s := by
      simp [← eq_only_of_events_singleton hr he, ← hin]
    exact ⟨[ev], by rw [he], by rw [hsame]⟩
  | succ n ih =>
    obtain ⟨ev, hmem, hnext⟩ := nextEvent_of_coincidence hin hr (by omega)
    have hperm : (ev :: (r.drop ev).events).Perm r.events := perm_cons_events_drop hmem
    have hlen : (r.drop ev).events.length = n + 1 := by
      simpa [hn] using hperm.length_eq
    have hstep := step_of_nextEvent_some hw hnext
    have hserial (es : List Event) := step_only (ev := ev) (rest := es.map Strobes.only ++ rest)
      (s := { s with
        inputs := (ev :: es).map Strobes.only ++ rest, picks := s.picks + (n + 1) }) hw rfl
    cases hx : exec (rowOf ev s) { s with
        inputs := r.drop ev :: rest, response := none, picks := s.picks + 1 } with
    | next u =>
      obtain ⟨hcfg, -, hinputs, hpicks⟩ := exec_frame hx
      obtain ⟨es, hes, hrun⟩ := ih (s := u) (by rw [hcfg]; exact hw) hinputs (drop_rst ev hr) hlen
      refine ⟨ev :: es, (hes.cons ev).trans hperm, ?_⟩
      rw [run_succ_of_next (hstep.trans hx), hrun,
        run_succ_of_next ((hserial es).trans (exec_with hx _ _)), hpicks,
        show s.picks + 1 + n = s.picks + (n + 1) by omega]
    | fault e => cases e
    | refused e =>
      exact ⟨_, hperm, (run_succ_of_refused (hstep.trans hx)).trans
        (run_succ_of_refused ((hserial _).trans (exec_refused_of hx _))).symm⟩

/-- Settles O32: RESET is taken first with all else dropped; other requests are taken one by one. -/
theorem coincidentRequestsAreSerialised : Obligations.CoincidentRequestsAreSerialised := by
  unfold Obligations.CoincidentRequestsAreSerialised
  refine fun s r rest hw hin => ⟨fun hr => ?_, fun hr hne => ?_⟩
  · rw [step_of_nextEvent_some hw (nextEvent_rst hin hr), rowOf_eq]
    simp [dispatchClass, exec, execReset, resetElements, coincidentAnswer, hr]
  · obtain ⟨n, hn⟩ := Nat.exists_eq_add_one.mpr (List.length_pos_iff.mpr hne)
    obtain ⟨es, hes, hrun⟩ := run_coincident hw hin hr hn
    exact ⟨es, hes, by simpa [hes.length_eq, hn] using hrun⟩

/-! ## The dispatch word (R64, R65) -/

theorem handles_iff {i : Instr} {w : DispatchWord} :
    i.handles w = true ↔ w &&& i.opMask = i.opMatch := by
  simp [Instr.handles]

theorem mem_instrAll (i : Instr) : i ∈ Instr.all := by
  cases i <;> decide

/-- Each of the 128 words is handled by its row and by no other (R65). -/
theorem filter_handles_all (w : DispatchWord) :
    (Instr.all.filter fun i => i.handles w) = [decode w] := by
  revert w
  decide

theorem handles_iff_decode_eq (i : Instr) (w : DispatchWord) :
    i.handles w = true ↔ decode w = i := by
  have h : i ∈ Instr.all.filter (fun i => i.handles w) ↔ i ∈ [decode w] := by
    rw [filter_handles_all]
  rw [List.mem_filter, List.mem_singleton] at h
  exact ⟨fun hi => (h.mp ⟨mem_instrAll i, hi⟩).symm, fun hd => (h.mpr hd.symm).2⟩

/-- Settles O25: the table is a partition of the words, one part for each row. -/
theorem everyWordMatchesOneRow : Obligations.EveryWordMatchesOneRow := by
  unfold Obligations.EveryWordMatchesOneRow
  exact ⟨fun w i => handles_iff_decode_eq i w, rfl, by decide, mem_instrAll⟩

/-- The encoding statement of each row, as one statement about all rows. -/
theorem encoding_all (i : Instr) : Laws.Encoding.Statement i := by
  cases i
  exacts [Laws.Encoding.tickIdle, Laws.Encoding.tickStartLow, Laws.Encoding.tickFirstGap,
    Laws.Encoding.tickBitMark, Laws.Encoding.tickBitSpace, Laws.Encoding.edgeMasked,
    Laws.Encoding.edgeIdle, Laws.Encoding.edgeStartLow, Laws.Encoding.edgeFirstGap,
    Laws.Encoding.edgeBitMark, Laws.Encoding.edgeBitSpace, Laws.Encoding.recvEmpty,
    Laws.Encoding.recvReady, Laws.Encoding.reset, Laws.Encoding.rsvdTickS5,
    Laws.Encoding.rsvdTickS6, Laws.Encoding.rsvdTickS7, Laws.Encoding.rsvdEdgeS5,
    Laws.Encoding.rsvdEdgeS6, Laws.Encoding.rsvdEdgeS7]

@[simp] theorem decode_encode (i : Instr) (context : DispatchWord) :
    decode (encode i context) = i :=
  (handles_iff_decode_eq i _).mp (encoding_all i context).1

/-- The tested bits of a word are its row's, and the encoder takes the others from the word. -/
theorem encode_decode (w : DispatchWord) : encode (decode w) w = w := by
  have hmatch : w &&& (decode w).opMask = (decode w).opMatch :=
    handles_iff.mp ((handles_iff_decode_eq _ w).mpr rfl)
  rw [encode, ← hmatch, ← BitVec.and_or_distrib_left, BitVec.or_not_self, BitVec.and_allOnes]

theorem decodeBytes_setWidth (w : DispatchWord) (rest : List Byte) :
    decodeBytes (w.setWidth 8 :: rest) = .ok (decode w, rest) := by
  simp [decodeBytes]

/-- Settles O26: a row handles its words, a word is its tested and its untested bits, and a byte holds
one word. -/
theorem decodeEncodeAgree : Obligations.DecodeEncodeAgree := by
  unfold Obligations.DecodeEncodeAgree
  refine ⟨decode_encode, encode_decode, fun i context rest => ?_⟩
  exact (decodeBytes_setWidth (encode i context) rest).trans (by rw [decode_encode])

/-- Settles O27: the fourteen words evaluated. -/
theorem writtenOutWordsDecode : Obligations.WrittenOutWordsDecode := by
  unfold Obligations.WrittenOutWordsDecode
  decide

/-! ## The row a step runs (R64) -/

/-- Fields side by side are digits: the upper one counts in units of the lower one's range. -/
theorem toNat_append_eq_add {m n : Nat} (x : BitVec m) (y : BitVec n) :
    (x ++ y).toNat = x.toNat * 2 ^ n + y.toNat := by
  rw [BitVec.toNat_append, ← Nat.shiftLeft_add_eq_or_of_lt y.isLt, Nat.shiftLeft_eq]

theorem toNat_packWord (ev : Event) (armed ready : Bool) (st : StateReg) :
    (packWord ev armed ready st).toNat =
      ev.code.toNat * 32 + armed.toNat * 16 + ready.toNat * 8 + st.code.toNat := by
  rw [packWord, toNat_append_eq_add, toNat_append_eq_add, toNat_append_eq_add,
    BitVec.toNat_ofBool, BitVec.toNat_ofBool]
  omega

/-- Settles O28: a single request is taken as it stands, and its word decodes to the row that handles
it. -/
theorem stepRunsDecodedRow : Obligations.StepRunsDecodedRow := by
  unfold Obligations.StepRunsDecodedRow
  intro s ev rest hw hin
  exact ⟨toNat_packWord ev _ _ _, (handles_iff_decode_eq _ _).mpr rfl, step_only hw hin⟩

theorem decode_of_decodeBytes {b : Byte} {rest rest' : List Byte} {i : Instr}
    (h : decodeBytes (b :: rest) = .ok (i, rest')) : decode (b.setWidth 7) = i := by
  simp only [decodeBytes] at h
  split at h
  · cases h
  · cases h
    rfl

/-- A word has no byte, or its low 8 bits are its first. -/
theorem wordBytes_cases (nbits w : Nat) :
    wordBytes nbits w = [] ∨ ∃ rest, wordBytes nbits w = BitVec.ofNat 8 w :: rest := by
  rw [wordBytes]
  cases (nbits + 7) / 8 with
  | zero => exact .inl rfl
  | succ n => exact .inr ⟨_, by rw [List.range_succ_eq_map, List.map_cons, pow_zero, Nat.div_one]⟩

/-- The word of a table entry is the low 7 bits of its number. -/
theorem decode_of_decodeTableWord {nbits w : Nat} {i : Instr}
    (h : decodeTableWord nbits w = some i) : decode (BitVec.ofNat 7 w) = i := by
  have hw : (BitVec.ofNat 8 w).setWidth 7 = BitVec.ofNat 7 w :=
    BitVec.setWidth_ofNat_of_le (by decide) w
  rcases wordBytes_cases nbits w with hb | ⟨rest, hb⟩ <;> rw [decodeTableWord, hb] at h
  · cases h
  · rw [← hw]
    cases hd : decodeBytes (BitVec.ofNat 8 w :: rest) with
    | ok p =>
      rw [hd] at h
      cases h
      exact decode_of_decodeBytes hd
    | error e =>
      rw [hd] at h
      cases h

theorem rowOf_presentWord (w : DispatchWord) (s : State) :
    rowOf (wordEvent w) (presentWord w s) = decode w := by
  simp [rowOf_eq, decode]

/-- Settles O29: the presented word's event is the first request, and its fields are the state's. -/
theorem presentedWordIsRun : Obligations.PresentedWordIsRun := by
  unfold Obligations.PresentedWordIsRun
  intro s nbits w i hw h
  have hfetch : s.withFetchWord nbits w = presentWord (BitVec.ofNat 7 w) s := by
    simp [State.withFetchWord, h]
  rw [hfetch, step_only (s := presentWord (BitVec.ofNat 7 w) s) hw rfl, rowOf_presentWord,
    decode_of_decodeTableWord h]
  rfl

/-! ## Reserved state codes (R61) -/

/-- A row leaves DecodeState as it was or gives it one of the five values. -/
theorem exec_decodeState_cases {i : Instr} {s t : State} (h : exec i s = .next t) :
    t.decodeState = s.decodeState ∨ stateNamed t := by
  rcases exec_next_cases h with ⟨-, rfl⟩ | ⟨-, rfl⟩ | ⟨-, rfl⟩ |
      (⟨-, rfl⟩ | ⟨-, rfl⟩ | ⟨-, rfl⟩) | ⟨-, rfl⟩ | ⟨-, rfl⟩ | ⟨-, rfl⟩ | ⟨-, rfl⟩
  · exact .inl rfl
  · rcases tickRun_cases s with ⟨-, e⟩ | ⟨-, -, e⟩ | ⟨-, -, e⟩ <;> rw [e]
    · exact .inl rfl
    · exact .inr ⟨_, rfl⟩
    · exact .inl rfl
  · rcases startCapture_cases s with ⟨-, e⟩ | ⟨-, -, e⟩ <;> rw [e]
    · exact .inl rfl
    · exact .inr ⟨_, rfl⟩
  iterate 3
    · rcases closeInterval_cases _ _ _ s with ⟨-, e⟩ | ⟨-, -, -, e⟩ | ⟨-, -, -, e⟩ <;> rw [e]
      · exact .inl rfl
      · exact .inr ⟨_, rfl⟩
      · exact .inr ⟨_, rfl⟩
  · rcases closeBitSpace_cases s with ⟨-, e⟩ | ⟨-, -, -, e⟩ | ⟨-, -, -, b, -, e⟩ |
        ⟨-, -, -, b, -, e⟩ <;> rw [e]
    · exact .inl rfl
    · exact .inr ⟨_, rfl⟩
    · exact .inr ⟨_, rfl⟩
    · exact .inr ⟨_, rfl⟩
  · rcases answerEmpty_cases s with ⟨-, e⟩ | ⟨-, e⟩ <;> rw [e] <;> exact .inl rfl
  · rcases consumeFrame_cases s with ⟨-, e⟩ | ⟨-, e⟩ <;> rw [e] <;> exact .inl rfl
  · exact .inr ⟨_, rfl⟩

/-- Settles O24: the six rows are refused as they stand, and no other row reaches such a code. -/
theorem reservedCodesAreRefused : Obligations.ReservedCodesAreRefused := by
  unfold Obligations.ReservedCodesAreRefused
  refine ⟨fun c i j hmem s => ?_, fun i s t h => exec_decodeState_cases h⟩
  simp only [List.mem_cons, Prod.mk.injEq, List.not_mem_nil, or_false] at hmem
  rw [rowOf_eq, rowOf_eq]
  rcases hmem with ⟨rfl, rfl, rfl⟩ | ⟨rfl, rfl, rfl⟩ | ⟨rfl, rfl, rfl⟩
  all_goals
    refine ⟨rfl, rfl, fun hd => ?_⟩
    rw [hd]
    exact ⟨rfl, fun ha => by rw [ha]; rfl⟩

/-! ## The rows that change nothing (R68) -/

/-- The reset state with another DecodeState: TickCount is 0, in no window and below the ceiling. -/
def resetIn (d : DecodeState) : State := { State.reset with decodeState := .named d }

/-- Settles O34: a TICK counts, an EDGE moves on or aborts, and RECV.READY and RESET clear. -/
theorem onlyThreeNoOps : Obligations.OnlyThreeNoOps := by
  unfold Obligations.OnlyThreeNoOps
  refine ⟨fun s => ⟨rfl, rfl, ?_⟩, fun i hi hne => ?_⟩
  · rcases answerEmpty_cases s with ⟨-, e⟩ | ⟨-, e⟩
    · exact ⟨s.response, congrArg Host.Outcome.next e⟩
    · exact ⟨some .noData, congrArg Host.Outcome.next e⟩
  · cases i
    case tickStartLow => exact ⟨.tick, resetIn .awaitingStartLow, _, rfl, rfl, by decide⟩
    case tickFirstGap => exact ⟨.tick, resetIn .awaitingFirstBitGap, _, rfl, rfl, by decide⟩
    case tickBitMark => exact ⟨.tick, resetIn .awaitingBitMark, _, rfl, rfl, by decide⟩
    case tickBitSpace => exact ⟨.tick, resetIn .awaitingBitSpace, _, rfl, rfl, by decide⟩
    case edgeIdle => exact ⟨.edge, resetIn .idle, _, rfl, rfl, by decide⟩
    case edgeStartLow => exact ⟨.edge, resetIn .awaitingStartLow, _, rfl, rfl, by decide⟩
    case edgeFirstGap => exact ⟨.edge, resetIn .awaitingFirstBitGap, _, rfl, rfl, by decide⟩
    case edgeBitMark => exact ⟨.edge, resetIn .awaitingBitMark, _, rfl, rfl, by decide⟩
    case edgeBitSpace => exact ⟨.edge, resetIn .awaitingBitSpace, _, rfl, rfl, by decide⟩
    case recvReady =>
      exact ⟨.tryReceive, { State.reset with frameReady := true }, _, rfl, rfl, by decide⟩
    case reset => exact ⟨.reset, resetIn .awaitingStartLow, _, rfl, rfl, by decide⟩
    case tickIdle | edgeMasked | recvEmpty => simp at hne
    case rsvdTickS5 | rsvdTickS6 | rsvdTickS7 | rsvdEdgeS5 | rsvdEdgeS6 | rsvdEdgeS7 => cases hi

/-! ## The length of a frame in edges and ticks (R52) -/

theorem count_edge_iv (n : Nat) : (iv n).count .edge = 1 := by
  simp [iv, ticks, List.count_replicate]

theorem count_tick_iv (n : Nat) : (iv n).count .tick = n := by
  simp [iv, ticks]

theorem count_edge_bitScript (m s : Nat) : (bitScript m s).count .edge = 2 := by
  simp [bitScript, count_edge_iv]

theorem count_tick_bitScript (m s : Nat) : (bitScript m s).count .tick = m + s := by
  simp [bitScript, count_tick_iv]

/-- Three edges for the start, two for each bit. -/
theorem count_edge_captureScript (a b : Nat) (bits : List (Nat × Nat)) :
    (captureScript a b bits).count .edge = 3 + 2 * bits.length := by
  have hbits : (bits.flatMap fun p => bitScript p.1 p.2).count .edge = 2 * bits.length := by
    induction bits with
    | nil => rfl
    | cons p bits ih =>
      rw [List.flatMap_cons, List.count_append, count_edge_bitScript, ih, List.length_cons]
      omega
  simp only [captureScript, start, List.count_append, List.count_singleton_self, count_edge_iv,
    hbits]

/-- The ticks of the start and of each bit. -/
theorem count_tick_captureScript (a b : Nat) (bits : List (Nat × Nat)) :
    (captureScript a b bits).count .tick = a + b + (bits.map fun p => p.1 + p.2).sum := by
  have hbits : (bits.flatMap fun p => bitScript p.1 p.2).count .tick =
      (bits.map fun p => p.1 + p.2).sum := by
    induction bits with
    | nil => rfl
    | cons p bits ih => simp [count_tick_bitScript, ih]
  simp [captureScript, start, count_tick_iv, hbits, Nat.add_assoc]

/-- A mark for each bit, a logic-0 space for each zero, a logic-1 space for each one. -/
theorem sum_bitv (k : ScriptConsts) (bits : List Bool) :
    ((bits.map k.bitv).map fun p => p.1 + p.2).sum =
      bits.length * k.m + bits.count false * k.z + bits.count true * k.o := by
  induction bits with
  | nil => simp
  | cons b bits ih =>
    rw [List.map_cons, List.map_cons, List.sum_cons, ih]
    cases b <;> simp [ScriptConsts.bitv] <;> ring

theorem length_frameBits (b0 b1 b2 b3 : Byte) : (frameBits b0 b1 b2 b3).length = 32 := by
  simp [frameBits, byteBits]

/-- Settles O50: 32 bits, of which those that are not ones are zeros. -/
theorem frameScriptLength : Obligations.FrameScriptLength := by
  unfold Obligations.FrameScriptLength
  intro k b0 b1 b2 b3 n
  have hlen : (frameBits b0 b1 b2 b3).length = 32 := length_frameBits b0 b1 b2 b3
  have hzeros : (frameBits b0 b1 b2 b3).count false = 32 - n := by
    have := List.count_false_add_count_true (frameBits b0 b1 b2 b3)
    omega
  refine ⟨?_, ?_⟩
  · rw [frameScript, count_edge_captureScript, List.length_map, hlen]
  · rw [frameScript, count_tick_captureScript, sum_bitv, hlen, hzeros]
    ring

end Sys2Proof.Machine
end

section
/-! PROOF. The statements of 40_tick_source.md: one TICK in Idle (R74) and in a capture (R75), and n
TICKs at once (R76). -/

namespace Sys2Proof.Machine

/-! ## One TICK -/

theorem timerRun_iff {s : State} : timerRun s = true ↔ s.decodeState ≠ .named .idle := by
  simp [timerRun]

theorem tickRun_of_idle {s : State} (hd : s.decodeState = .named .idle) : tickRun s = s := by
  simp [tickRun, hd]

theorem tickRun_of_ceiling_le {s : State} (hd : s.decodeState ≠ .named .idle)
    (hc : s.cfg.tickCeiling ≤ s.tickCount) : tickRun s = abort .timeout s := by
  simp [tickRun, hd, atCeiling_iff.mpr hc]

theorem tickRun_of_lt_ceiling {s : State} (hd : s.decodeState ≠ .named .idle)
    (hc : s.tickCount < s.cfg.tickCeiling) :
    tickRun s = { s with tickCount := s.tickCount + 1 } := by
  simp [tickRun, hd, atCeiling, hc]

/-- A TICK neither reads nor writes the response. -/
theorem tickRun_withResponse (s : State) (r : Option Response) :
    tickRun { s with response := r } = { tickRun s with response := r } := by
  by_cases hd : s.decodeState = .named .idle <;>
    by_cases hc : s.cfg.tickCeiling ≤ s.tickCount <;> simp [tickRun, atCeiling, hd, hc, abort]

/-- In a named state the row of a TICK runs the body of R75, which in Idle does nothing. -/
theorem exec_rowOf_tick {s : State} (hs : stateNamed s) :
    exec (rowOf .tick s) s = .next (tickRun s) := by
  obtain ⟨t, ht⟩ := exec_isNext_of_wf (rowOf_wf hs .tick) s
  have htick : t = tickRun s := by simpa using rowOf_next_cases ht
  rw [ht, htick]

/-- Settles O4: TICK.IDLE is the class of a TICK in Idle, and its meaning is the identity. -/
theorem tickInIdleChangesNothing : Obligations.TickInIdleChangesNothing := by
  unfold Obligations.TickInIdleChangesNothing
  intro s hd
  constructor
  · rw [rowOf_eq, hd]
    rfl
  · rfl

/-- Settles O5: each of the four rows runs `tickRun`, which aborts from the ceiling on and counts
below it. -/
theorem tickCountsOrTimesOut : Obligations.TickCountsOrTimesOut := by
  unfold Obligations.TickCountsOrTimesOut
  intro d i hdi s hd
  obtain ⟨hclass, hidle⟩ : decodeTick (.named d) = i ∧ d ≠ .idle := by
    simp only [List.mem_cons, Prod.mk.injEq, List.not_mem_nil, or_false] at hdi
    rcases hdi with ⟨rfl, rfl⟩ | ⟨rfl, rfl⟩ | ⟨rfl, rfl⟩ | ⟨rfl, rfl⟩ <;> simp [decodeTick]
  have hrow : rowOf .tick s = i := by
    rw [rowOf_eq, hd]
    exact hclass
  have hcapture : s.decodeState ≠ .named .idle := by simpa [hd] using hidle
  have hexec : exec i s = .next (tickRun s) := hrow ▸ exec_rowOf_tick ⟨d, hd⟩
  refine ⟨hrow, fun hc => ?_, fun hc => ?_⟩
  · rw [hexec, tickRun_of_ceiling_le hcapture hc]
    rfl
  · rw [hexec, tickRun_of_lt_ceiling hcapture hc]

/-! ## Many TICKs -/

theorem ticks_succ (n : Nat) : ticks (n + 1) = .tick :: ticks n := rfl

theorem runScript_ticks_succ {s : State} (n : Nat) (hw : s.cfg.wf = true) (hs : stateNamed s) :
    runScript (ticks (n + 1)) s = runScript (ticks n) { tickRun s with response := none } := by
  rw [← tickRun_withResponse]
  exact runScript_cons _ hw (exec_rowOf_tick (s := { s with response := none }) hs)

/-- TICKs in Idle change nothing but the response (40_tick_source.md R74). -/
theorem runScript_ticks_of_idle {s : State} (n : Nat) (hw : s.cfg.wf = true)
    (hd : s.decodeState = .named .idle) :
    runScript (ticks n) s = .next { s with response := if n = 0 then s.response else none } := by
  induction n generalizing s with
  | zero => rfl
  | succ n ih =>
    rw [runScript_ticks_succ n hw ⟨_, hd⟩, tickRun_of_idle hd]
    exact Eq.trans (ih hw hd) (by simp)

/-- TICKs of a capture that stay within the ceiling are counted (40_tick_source.md R76). -/
theorem runScript_ticks_of_le_ceiling {s : State} (n : Nat) (hw : s.cfg.wf = true)
    (hs : stateNamed s) (hd : s.decodeState ≠ .named .idle)
    (hc : s.tickCount + n ≤ s.cfg.tickCeiling) :
    runScript (ticks n) s = .next { s with
      tickCount := s.tickCount + n
      response := if n = 0 then s.response else none } := by
  induction n generalizing s with
  | zero => rfl
  | succ n ih =>
    have hbelow : s.tickCount < s.cfg.tickCeiling := by omega
    have hrest : s.tickCount + 1 + n ≤ s.cfg.tickCeiling := by omega
    rw [runScript_ticks_succ n hw hs, tickRun_of_lt_ceiling hd hbelow]
    exact Eq.trans (ih hw hs hd hrest) (by simp [Nat.add_assoc, Nat.add_comm 1])

/-- TICKs of a capture past the ceiling: count up to it, time out on the next TICK, and stay in Idle
for the rest (40_tick_source.md R76). -/
theorem runScript_ticks_of_ceiling_lt {s : State} (n : Nat) (hw : s.cfg.wf = true)
    (hs : stateNamed s) (hd : s.decodeState ≠ .named .idle)
    (hb : countBounded s) (hc : s.cfg.tickCeiling < s.tickCount + n) :
    runScript (ticks n) s = .next { abort .timeout s with response := none } := by
  induction n generalizing s with
  | zero => exact absurd hb (Nat.not_le.mpr hc)
  | succ n ih =>
    rw [runScript_ticks_succ n hw hs]
    by_cases hbelow : s.tickCount < s.cfg.tickCeiling
    · have hrest : s.cfg.tickCeiling < s.tickCount + 1 + n := by omega
      rw [tickRun_of_lt_ceiling hd hbelow]
      exact ih hw hs hd hbelow hrest
    · rw [tickRun_of_ceiling_le hd (Nat.le_of_not_lt hbelow)]
      exact Eq.trans (runScript_ticks_of_idle n hw rfl) (by simp)

/-- Settles O6: the count stays within the ceiling, or it passes it. -/
theorem manyTicksCountOrTimeOut : Obligations.ManyTicksCountOrTimeOut := by
  unfold Obligations.ManyTicksCountOrTimeOut
  intro n s hw hs hrun hb
  have hd : s.decodeState ≠ .named .idle := timerRun_iff.mp hrun
  exact ⟨runScript_ticks_of_le_ceiling n hw hs hd, runScript_ticks_of_ceiling_lt n hw hs hd hb⟩

end Sys2Proof.Machine
end

section
/-! PROOF. The statements of 41_frame_fsm.md about one event: the window test and the classes (R56,
R89), what an EDGE does in each state (R82 to R88), `abort` (R91), the transition graph (R95) and
the counters (R96). -/

namespace Sys2Proof.Machine

/-! ## Windows and classes (R56, R89) -/

theorem inw_eq_false_iff {e : Nat} {w : Window} : inw e w = false ↔ e < w.min ∨ w.max < e := by
  rw [← Bool.not_eq_true, inw_iff]
  omega

theorem classifySpace_of_s0 {c : Cfg} {e : Nat} (h0 : inw e c.s0 = true) :
    classifySpace c e = .bit false := by
  simp [classifySpace, h0]

theorem classifySpace_of_s1 {c : Cfg} {e : Nat} (h0 : inw e c.s0 = false)
    (h1 : inw e c.s1 = true) : classifySpace c e = .bit true := by
  simp [classifySpace, h0, h1]

theorem classifySpace_of_neither {c : Cfg} {e : Nat} (h0 : inw e c.s0 = false)
    (h1 : inw e c.s1 = false) : classifySpace c e = .violation := by
  simp [classifySpace, h0, h1]

/-- In a well-formed configuration the two windows fix the bit, whichever is tested first. -/
theorem classifySpace_eq_bit {c : Cfg} (hc : c.wf = true) {e : Nat} {b : Bool}
    (h : inw e c.s0 = true ∧ b = false ∨ inw e c.s1 = true ∧ b = true) :
    classifySpace c e = .bit b := by
  rcases h with ⟨h0, rfl⟩ | ⟨h1, rfl⟩
  · exact classifySpace_of_s0 h0
  · cases h0 : inw e c.s0
    · exact classifySpace_of_s1 h0 h1
    · simp [spaces_disjoint hc h0] at h1

theorem classifySpace_bit_of_inw {c : Cfg} {e : Nat}
    (h : inw e c.s0 = true ∨ inw e c.s1 = true) : ∃ b, classifySpace c e = .bit b := by
  rcases classifySpace_cases c e with ⟨hb, -⟩ | ⟨hb, -, -⟩ | ⟨-, h0, h1⟩
  · exact ⟨_, hb⟩
  · exact ⟨_, hb⟩
  · simp [h0, h1] at h

/-- Settles O16: with S0 before S1 (R8(b)) each of the five intervals lies in one window or none. -/
theorem windowsClassifyEveryCount : Obligations.WindowsClassifyEveryCount := by
  unfold Obligations.WindowsClassifyEveryCount
  refine ⟨fun _ _ => inw_iff, fun _ _ => rfl, fun c e hc => ?_⟩
  obtain ⟨hall, hgap, -⟩ := cfgWf_iff.mp hc
  have h0 : c.s0.min ≤ c.s0.max := (hall c.s0 (by simp)).2.1
  have h1 : c.s1.min ≤ c.s1.max := (hall c.s1 (by simp)).2.1
  have hneither : (e < c.s0.min ∨ c.s0.max < e) → (e < c.s1.min ∨ c.s1.max < e) →
      classifySpace c e = .violation := fun h0 h1 =>
    classifySpace_of_neither (inw_eq_false_iff.mpr h0) (inw_eq_false_iff.mpr h1)
  refine ⟨fun h => ?_, fun hlo hhi => ?_, fun hlo hhi => ?_, fun hlo hhi => ?_, fun h => ?_⟩
  · exact hneither (.inl h) (.inl (by omega))
  · exact classifySpace_of_s0 (inw_iff.mpr ⟨hlo, hhi⟩)
  · exact hneither (.inr hlo) (.inl hhi)
  · exact classifySpace_eq_bit hc (.inr ⟨inw_iff.mpr ⟨hlo, hhi⟩, rfl⟩)
  · exact hneither (.inr (by omega)) (.inr h)

/-! ## The row of an EDGE (R64), and what its body does -/

theorem rowOf_edge_of_masked {s : State} (ha : s.edgeArmed = false) :
    rowOf .edge s = .edgeMasked := by
  simp [rowOf_eq, dispatchClass, ha]

theorem rowOf_edge_of_armed {s : State} {d : DecodeState} (ha : s.edgeArmed = true)
    (hd : s.decodeState = .named d) : rowOf .edge s = decodeArmedEdge (.named d) := by
  simp [rowOf_eq, dispatchClass, ha, hd]

theorem startCapture_of_idle {s : State} (ha : s.edgeArmed = true)
    (hd : s.decodeState = .named .idle) : startCapture s =
      { s with tickCount := 0, bitIndex := 0, decodeState := .named .awaitingStartLow } := by
  simp [startCapture, ha, hd]

theorem closeInterval_of_inw {s : State} {here there : DecodeState} {w : Window}
    (ha : s.edgeArmed = true) (hd : s.decodeState = .named here) (hw : inw s.tickCount w = true) :
    closeInterval here w there s = goTo there (clearTick s) := by
  simp [closeInterval, ha, hd, hw]

theorem closeInterval_of_not_inw {s : State} {here there : DecodeState} {w : Window}
    (ha : s.edgeArmed = true) (hd : s.decodeState = .named here) (hw : inw s.tickCount w = false) :
    closeInterval here w there s = abort .violation s := by
  simp [closeInterval, ha, hd, hw, abort, clearTick]

theorem closeBitSpace_of_violation {s : State} (ha : s.edgeArmed = true)
    (hd : s.decodeState = .named .awaitingBitSpace)
    (hc : classifySpace s.cfg s.tickCount = .violation) :
    closeBitSpace s = abort .violation s := by
  simp [closeBitSpace, ha, hd, hc, abort, clearTick]

theorem closeBitSpace_of_bit_last {s : State} {b : Bool} (ha : s.edgeArmed = true)
    (hd : s.decodeState = .named .awaitingBitSpace)
    (hc : classifySpace s.cfg s.tickCount = .bit b) (h31 : s.bitIndex = 31) :
    closeBitSpace s = complete (bufWrite s.bitIndex b s) := by
  simp [closeBitSpace, ha, hd, hc, storeBit, complete, bufWrite, clearTick, h31]

theorem closeBitSpace_of_bit_next {s : State} {b : Bool} (ha : s.edgeArmed = true)
    (hd : s.decodeState = .named .awaitingBitSpace)
    (hc : classifySpace s.cfg s.tickCount = .bit b) (h31 : s.bitIndex ≠ 31) :
    closeBitSpace s = goTo .awaitingBitMark
      { bufWrite s.bitIndex b (clearTick s) with bitIndex := s.bitIndex + 1 } := by
  simp [closeBitSpace, ha, hd, hc, storeBit, h31]

/-- The three rows that test one window accept within its bounds and abort outside them. -/
theorem exec_accepts_or_aborts {i : Instr} {s : State} {here there : DecodeState} {w : Window}
    (hx : exec i s = .next (closeInterval here w there s))
    (ha : s.edgeArmed = true) (hd : s.decodeState = .named here) :
    (w.min ≤ s.tickCount ∧ s.tickCount ≤ w.max → exec i s = .next
      { s with tickCount := 0, decodeState := .named there }) ∧
    (s.tickCount < w.min ∨ w.max < s.tickCount → exec i s = .next
      { s with decodeState := .named .idle, bitIndex := 0, tickCount := 0 }) := by
  refine ⟨fun hin => ?_, fun hout => ?_⟩
  · rw [hx, closeInterval_of_inw ha hd (inw_iff.mpr hin)]
    rfl
  · rw [hx, closeInterval_of_not_inw ha hd (inw_eq_false_iff.mpr hout)]
    rfl

theorem closeInterval_decodeState {s : State} {here there : DecodeState} {w : Window}
    (ha : s.edgeArmed = true) (hd : s.decodeState = .named here) :
    (closeInterval here w there s).decodeState =
      if inw s.tickCount w then .named there else .named .idle := by
  cases hw : inw s.tickCount w
  · rw [closeInterval_of_not_inw ha hd hw]
    rfl
  · rw [closeInterval_of_inw ha hd hw]
    rfl

theorem closeInterval_tickCount {s : State} {here there : DecodeState} {w : Window}
    (ha : s.edgeArmed = true) (hd : s.decodeState = .named here) :
    (closeInterval here w there s).tickCount = 0 := by
  cases hw : inw s.tickCount w
  · rw [closeInterval_of_not_inw ha hd hw]
    rfl
  · rw [closeInterval_of_inw ha hd hw]
    rfl

theorem closeBitSpace_tickCount {s : State} (ha : s.edgeArmed = true)
    (hd : s.decodeState = .named .awaitingBitSpace) : (closeBitSpace s).tickCount = 0 := by
  rcases closeBitSpace_cases s with ⟨hne, -⟩ | ⟨-, -, -, e⟩ | ⟨-, -, -, b, -, e⟩ |
      ⟨-, -, -, b, -, e⟩
  · exact absurd ⟨ha, hd⟩ hne
  all_goals
    rw [e]
    rfl

/-! ## One EDGE -/

/-- Settles O8: EdgeArmed = 0 is EDGE.MASKED, whose meaning is the identity. -/
theorem maskedEdgeIsDropped : Obligations.MaskedEdgeIsDropped := by
  unfold Obligations.MaskedEdgeIsDropped
  exact fun _ ha => ⟨rowOf_edge_of_masked ha, rfl⟩

/-- Settles O9: the guard of `startCapture` holds, and nothing else is tested. -/
theorem edgeInIdleStartsCapture : Obligations.EdgeInIdleStartsCapture := by
  unfold Obligations.EdgeInIdleStartsCapture
  exact fun _ ha hd =>
    ⟨rowOf_edge_of_armed ha hd, congrArg Host.Outcome.next (startCapture_of_idle ha hd)⟩

/-- Settles O10: EDGE.START_LOW tests the window SM. -/
theorem startMarkAcceptedOrAborted : Obligations.StartMarkAcceptedOrAborted := by
  unfold Obligations.StartMarkAcceptedOrAborted
  exact fun _ ha hd => ⟨rowOf_edge_of_armed ha hd, exec_accepts_or_aborts rfl ha hd⟩

/-- Settles O11: EDGE.FIRST_GAP tests the window SG. -/
theorem startGapAcceptedOrAborted : Obligations.StartGapAcceptedOrAborted := by
  unfold Obligations.StartGapAcceptedOrAborted
  exact fun _ ha hd => ⟨rowOf_edge_of_armed ha hd, exec_accepts_or_aborts rfl ha hd⟩

/-- Settles O12: EDGE.BIT_MARK tests the window BM. -/
theorem bitMarkAcceptedOrAborted : Obligations.BitMarkAcceptedOrAborted := by
  unfold Obligations.BitMarkAcceptedOrAborted
  exact fun _ ha hd => ⟨rowOf_edge_of_armed ha hd, exec_accepts_or_aborts rfl ha hd⟩

/-- Settles O13: the class picks abort or the bit, and the bit is written at BitIndex before the
capture completes or goes on. -/
theorem bitSpaceStoresBitOrAborts : Obligations.BitSpaceStoresBitOrAborts := by
  unfold Obligations.BitSpaceStoresBitOrAborts
  intro s hc ha hd
  refine ⟨rowOf_edge_of_armed ha hd, fun ⟨h0, h1⟩ => ?_, fun b hb => ?_⟩
  · exact congrArg Host.Outcome.next
      (closeBitSpace_of_violation ha hd (classifySpace_of_neither h0 h1))
  · have hbit : classifySpace s.cfg s.tickCount = .bit b := classifySpace_eq_bit hc hb
    refine ⟨Mem.write s.frameBuffer s.bitIndex.val b, read_write_same _ _ _,
      fun a hne => read_write_other _ b hne, fun h31 => ?_, fun k hk => ?_⟩
    · exact congrArg Host.Outcome.next (closeBitSpace_of_bit_last ha hd hbit (Fin.ext h31))
    · have h31 : s.bitIndex ≠ 31 := by
        intro h
        have : s.bitIndex.val = 31 := congrArg Fin.val h
        omega
      have hsucc : k = s.bitIndex + 1 :=
        Fin.ext (hk.trans (Fin.val_add_one_of_lt (Fin.lt_last_iff_ne_last.mpr h31)).symm)
      rw [hsucc]
      exact congrArg Host.Outcome.next (closeBitSpace_of_bit_next ha hd hbit h31)

/-- Settles O14: the body of each of the five armed rows clears the count. -/
theorem armedEdgeClearsTickCount : Obligations.ArmedEdgeClearsTickCount := by
  unfold Obligations.ArmedEdgeClearsTickCount
  intro s ⟨d, hd⟩
  refine ⟨fun ha => ?_, rowOf_edge_of_masked⟩
  rw [rowOf_edge_of_armed ha hd]
  cases d with
  | idle => exact ⟨_, rfl, by rw [startCapture_of_idle ha hd]⟩
  | awaitingStartLow | awaitingFirstBitGap | awaitingBitMark =>
    exact ⟨_, rfl, closeInterval_tickCount ha hd⟩
  | awaitingBitSpace => exact ⟨_, rfl, closeBitSpace_tickCount ha hd⟩

/-- Settles O15: the cause is an argument that `abort` does not read. -/
theorem abortMakesThreeWrites : Obligations.AbortMakesThreeWrites := by
  unfold Obligations.AbortMakesThreeWrites
  exact fun _ _ => rfl

/-! ## The transition graph (R95) -/

/-- An armed EDGE in a named state runs the row of that state. -/
theorem exec_of_armed_edge {s t : State} {d : DecodeState} (ha : s.edgeArmed = true)
    (hd : s.decodeState = .named d) (h : exec (rowOf .edge s) s = .next t) :
    exec (decodeArmedEdge (.named d)) s = .next t := by
  rwa [rowOf_edge_of_armed ha hd] at h

theorem tick_next_eq {s t : State} (h : exec (rowOf .tick s) s = .next t) : t = tickRun s := by
  simpa using rowOf_next_cases h

/-- The three ways on from a bit space: Idle, the next bit mark, or Idle with the frame ready. -/
theorem closeBitSpace_decodeState {s : State} (ha : s.edgeArmed = true)
    (hd : s.decodeState = .named .awaitingBitSpace) :
    (inw s.tickCount s.cfg.s0 = false ∧ inw s.tickCount s.cfg.s1 = false →
      (closeBitSpace s).decodeState = .named .idle) ∧
    (inw s.tickCount s.cfg.s0 = true ∨ inw s.tickCount s.cfg.s1 = true →
      (s.bitIndex.val < 31 → (closeBitSpace s).decodeState = .named .awaitingBitMark) ∧
      (s.bitIndex.val = 31 →
        (closeBitSpace s).decodeState = .named .idle ∧ (closeBitSpace s).frameReady = true)) := by
  refine ⟨fun ⟨h0, h1⟩ => ?_, fun hin => ?_⟩
  · rw [closeBitSpace_of_violation ha hd (classifySpace_of_neither h0 h1)]
    rfl
  · obtain ⟨b, hb⟩ := classifySpace_bit_of_inw hin
    refine ⟨fun hlt => ?_, fun h31 => ?_⟩
    · rw [closeBitSpace_of_bit_next ha hd hb fun h => by simp [h] at hlt]
      rfl
    · rw [closeBitSpace_of_bit_last ha hd hb (Fin.ext h31)]
      exact ⟨rfl, rfl⟩

/-- Settles O37: event by event, and for an armed EDGE state by state. -/
theorem transitionGraphOfDecodeState : Obligations.TransitionGraphOfDecodeState := by
  unfold Obligations.TransitionGraphOfDecodeState
  intro ev s t h
  refine ⟨?_, ?_, ?_, ?_, ?_, ?_, ?_⟩ <;> rintro rfl
  · rw [reset_next_eq h]
    rfl
  · rw [tryReceive_frame h]
  · intro ha
    rw [rowOf_edge_of_masked ha] at h
    cases h
    rfl
  · intro hd
    rw [tick_next_eq h, tickRun_of_idle hd, hd]
  · intro hd hlt
    rw [tick_next_eq h, tickRun_of_lt_ceiling hd hlt]
  · intro hd hle
    rw [tick_next_eq h, tickRun_of_ceiling_le hd hle]
    rfl
  · intro ha
    refine ⟨?_, ?_, ?_, ?_, ?_⟩ <;> intro hd <;> cases exec_of_armed_edge ha hd h
    · rw [startCapture_of_idle ha hd]
    iterate 3 exact closeInterval_decodeState ha hd
    · exact closeBitSpace_decodeState ha hd

/-! ## The counters (R96) -/

/-- Everything a row can do to TickCount and to BitIndex. -/
theorem counters_cases {i : Instr} {s t : State} (h : exec i s = .next t) :
    (t.tickCount = s.tickCount ∨ t.tickCount = 0 ∨
      (t.tickCount = s.tickCount + 1 ∧ s.tickCount < s.cfg.tickCeiling)) ∧
    (t.bitIndex = s.bitIndex ∨ t.bitIndex = 0 ∨
      (t.bitIndex.val = s.bitIndex.val + 1 ∧ s.bitIndex.val < 31)) := by
  rcases exec_next_cases h with ⟨-, rfl⟩ | ⟨-, rfl⟩ | ⟨-, rfl⟩ |
      (⟨-, rfl⟩ | ⟨-, rfl⟩ | ⟨-, rfl⟩) | ⟨-, rfl⟩ | ⟨-, rfl⟩ | ⟨-, rfl⟩ | ⟨-, rfl⟩
  · exact ⟨.inl rfl, .inl rfl⟩
  · rcases tickRun_cases s with ⟨-, e⟩ | ⟨-, -, e⟩ | ⟨-, hlt, e⟩ <;> rw [e]
    · exact ⟨.inl rfl, .inl rfl⟩
    · exact ⟨.inr (.inl rfl), .inr (.inl rfl)⟩
    · exact ⟨.inr (.inr ⟨rfl, hlt⟩), .inl rfl⟩
  · rcases startCapture_cases s with ⟨-, e⟩ | ⟨-, -, e⟩ <;> rw [e] <;> simp
  iterate 3
    · rcases closeInterval_cases _ _ _ s with ⟨-, e⟩ | ⟨-, -, -, e⟩ | ⟨-, -, -, e⟩ <;>
        rw [e] <;> simp
  · rcases closeBitSpace_cases s with ⟨-, e⟩ | ⟨-, -, -, e⟩ | ⟨-, -, -, b, -, e⟩ |
        ⟨-, -, h31, b, -, e⟩ <;> rw [e]
    · exact ⟨.inl rfl, .inl rfl⟩
    · exact ⟨.inr (.inl rfl), .inr (.inl rfl)⟩
    · exact ⟨.inr (.inl rfl), .inr (.inl rfl)⟩
    · have hlt : s.bitIndex < Fin.last 31 := Fin.lt_last_iff_ne_last.mpr h31
      exact ⟨.inr (.inl rfl), .inr (.inr ⟨Fin.val_add_one_of_lt hlt, hlt⟩)⟩
  · rcases answerEmpty_cases s with ⟨-, e⟩ | ⟨-, e⟩ <;> rw [e] <;> exact ⟨.inl rfl, .inl rfl⟩
  · rcases consumeFrame_cases s with ⟨-, e⟩ | ⟨-, e⟩ <;> rw [e] <;> exact ⟨.inl rfl, .inl rfl⟩
  · exact ⟨.inr (.inl rfl), .inr (.inl rfl)⟩

/-- Settles O7: the counters' cases, and a ceiling that fits in TICK_W bits (R8(d)). -/
theorem countersNeverWrap : Obligations.CountersNeverWrap := by
  unfold Obligations.CountersNeverWrap
  intro i s t hc hb h
  obtain ⟨hcount, hindex⟩ := counters_cases h
  have hfits : s.cfg.tickCeiling < 2 ^ s.cfg.tickW := (cfgWf_iff.mp hc).2.2
  have hle : s.tickCount ≤ s.cfg.tickCeiling := hb
  have hbound : t.tickCount ≤ s.cfg.tickCeiling := by omega
  exact ⟨hcount, lt_of_le_of_lt hbound hfits, hindex⟩

end Sys2Proof.Machine
end

section
/-! PROOF. The statements of 41_frame_fsm.md about whole captures (R93): 67 edges whose 66 intervals
pass their tests capture a frame, and no other script of at most 67 edges does.

A capture is followed by the number `p` of its edges so far, 0 in Idle and 67 when the frame is
ready. An interval that passes its test moves `p` up by one. One that fails moves it back to 0, or
to 1 after a timeout, and then too few edges are left to reach 67. -/

namespace Sys2Proof.Machine

/-! ## The state after `p` edges -/

/-- The state in which a capture waits after `p` edges. -/
def awaitedAfter : Nat → DecodeState
  | 0 => .idle
  | 1 => .awaitingStartLow
  | 2 => .awaitingFirstBitGap
  | p + 3 => if p % 2 = 0 then .awaitingBitMark else .awaitingBitSpace

/-- BitIndex after `p` edges: the bits so far. -/
def bitIndexAfter (p : Nat) : SlotIdx := Fin.ofNat 32 ((p - 3) / 2)

/-- A capture begun in `s`, after `p` edges and `e` ticks more, with the buffer `m`. -/
def inCapture (s : State) (p : Nat) (m : Mem) (e : Nat) : State :=
  { s with
    decodeState := .named (awaitedAfter p)
    tickCount := e
    bitIndex := bitIndexAfter p
    frameBuffer := m
    response := none }

/-- A frame captured from `s` on, with the buffer `m`. -/
def frameCaptured (s : State) (m : Mem) : State :=
  { complete s with frameBuffer := m, response := none }

/-- A capture begun in `s`, right after its `p`th edge: complete after the 67th. -/
def afterEdges (s : State) (p : Nat) (m : Mem) : State :=
  if p < 67 then inCapture s p m 0 else frameCaptured s m

@[simp] theorem inCapture_decodeState (s : State) (p : Nat) (m : Mem) (e : Nat) :
    (inCapture s p m e).decodeState = .named (awaitedAfter p) := rfl

theorem afterEdges_of_lt {s : State} {p : Nat} {m : Mem} (hp : p < 67) :
    afterEdges s p m = inCapture s p m 0 := if_pos hp

theorem awaitedAfter_mark (i : Nat) : awaitedAfter (2 * i + 3) = .awaitingBitMark := by
  simp [awaitedAfter]

theorem awaitedAfter_space (i : Nat) : awaitedAfter (2 * i + 4) = .awaitingBitSpace := by
  simp [awaitedAfter]

theorem val_bitIndexAfter_space {i : Nat} (hi : i < 32) :
    (bitIndexAfter (2 * i + 4)).val = i := by
  simp only [bitIndexAfter, Fin.val_ofNat]
  omega

theorem bitIndexAfter_space (i : Nat) : bitIndexAfter (2 * i + 4) = bitIndexAfter (2 * i + 3) := by
  simp only [bitIndexAfter, Fin.ext_iff, Fin.val_ofNat]
  omega

theorem bitIndexAfter_next (i : Nat) :
    bitIndexAfter (2 * i + 5) = bitIndexAfter (2 * i + 4) + 1 := by
  simp only [bitIndexAfter, Fin.ext_iff, Fin.val_ofNat, Fin.val_add, Fin.val_one]
  omega

/-- The intervals of a capture: the start mark and gap, then a mark and a space for each bit. -/
theorem edges_cases {p : Nat} (hp : p < 67) :
    p = 0 ∨ p = 1 ∨ p = 2 ∨ (∃ i, i < 32 ∧ p = 2 * i + 3) ∨ ∃ i, i < 32 ∧ p = 2 * i + 4 := by
  rcases Nat.even_or_odd' p with ⟨i, rfl | rfl⟩
  · by_cases hi : 2 ≤ i
    · exact .inr (.inr (.inr (.inr ⟨i - 2, by omega, by omega⟩)))
    · omega
  · by_cases hi : 1 ≤ i
    · exact .inr (.inr (.inr (.inl ⟨i - 1, by omega, by omega⟩)))
    · omega

theorem awaitedAfter_ne_idle {p : Nat} (h0 : p ≠ 0) : awaitedAfter p ≠ .idle := by
  match p with
  | 0 => exact absurd rfl h0
  | 1 | 2 => simp [awaitedAfter]
  | p + 3 =>
    simp only [awaitedAfter]
    split <;> simp

/-! ## The test an interval must pass -/

/-- What an armed EDGE in the state `d` asks of the elapsed count (41_frame_fsm.md R84 to R88). -/
def passesTest (c : Cfg) (d : DecodeState) (e : Nat) : Bool :=
  match d with
  | .idle => true
  | .awaitingStartLow => inw e c.sm
  | .awaitingFirstBitGap => inw e c.sg
  | .awaitingBitMark => inw e c.bm
  | .awaitingBitSpace => inw e c.s0 || inw e c.s1

/-- The intervals `es`, the first of which follows the `p`th edge, pass their tests in order. -/
def allPass (c : Cfg) (p : Nat) (es : List Nat) : Prop :=
  ∀ k e, es[k]? = some e → passesTest c (awaitedAfter (p + k)) e = true

theorem allPass_nil (c : Cfg) (p : Nat) : allPass c p [] := by
  simp [allPass]

theorem allPass_cons {c : Cfg} {p e : Nat} {es : List Nat} :
    allPass c p (e :: es) ↔
      passesTest c (awaitedAfter p) e = true ∧ allPass c (p + 1) es := by
  have hshift (k : Nat) : p + (k + 1) = p + 1 + k := by omega
  refine ⟨fun h => ⟨h 0 e rfl, fun k x hx => ?_⟩, ?_⟩
  · exact hshift k ▸ h (k + 1) x hx
  · rintro ⟨he, hes⟩ (- | k) x hx
    · cases hx
      exact he
    · exact hshift k ▸ hes k x hx

theorem exists_bit_of_passesTest {c : Cfg} {e : Nat}
    (h : passesTest c .awaitingBitSpace e = true) : ∃ b, classifySpace c e = .bit b :=
  classifySpace_bit_of_inw (by simpa [passesTest] using h)

/-- An interval that passes a test ends before the timeout (00_scope.md R8(c)). -/
theorem le_ceiling_of_passesTest {c : Cfg} (hc : c.wf = true) {d : DecodeState} {e : Nat}
    (hd : d ≠ .idle) (h : passesTest c d e = true) : e ≤ c.tickCeiling := by
  apply inw_le_ceiling hc
  cases d with
  | idle => exact absurd rfl hd
  | awaitingStartLow | awaitingFirstBitGap | awaitingBitMark =>
    simp only [passesTest] at h
    simp [h]
  | awaitingBitSpace =>
    simp only [passesTest, Bool.or_eq_true] at h
    exact .inr (.inr (.inr h))

/-- An armed EDGE whose interval fails its test aborts. -/
theorem exec_edge_of_fails {s : State} {d : DecodeState} (ha : s.edgeArmed = true)
    (hd : s.decodeState = .named d) (h : passesTest s.cfg d s.tickCount = false) :
    exec (rowOf .edge s) s = .next (abort .violation s) := by
  rw [rowOf_edge_of_armed ha hd]
  cases d with
  | idle => cases h
  | awaitingStartLow | awaitingFirstBitGap | awaitingBitMark =>
    exact congrArg Host.Outcome.next (closeInterval_of_not_inw ha hd h)
  | awaitingBitSpace =>
    simp only [passesTest, Bool.or_eq_false_iff] at h
    obtain ⟨h0, h1⟩ := h
    exact congrArg Host.Outcome.next
      (closeBitSpace_of_violation ha hd (classifySpace_of_neither h0 h1))

/-! ## One EDGE of a capture -/

theorem exec_edge_of_idle {s : State} (ha : s.edgeArmed = true)
    (hd : s.decodeState = .named .idle) :
    exec (rowOf .edge s) { s with response := none } = .next (inCapture s 1 s.frameBuffer 0) := by
  rw [rowOf_edge_of_armed ha hd]
  exact congrArg Host.Outcome.next (startCapture_of_idle (s := { s with response := none }) ha hd)

/-- A start mark, a start gap or a bit mark that passes its test. -/
theorem closeInterval_inCapture {s : State} {p e : Nat} {m : Mem} {w : Window}
    (ha : s.edgeArmed = true) (hi : bitIndexAfter (p + 1) = bitIndexAfter p)
    (hw : inw e w = true) :
    closeInterval (awaitedAfter p) w (awaitedAfter (p + 1)) (inCapture s p m e) =
      inCapture s (p + 1) m 0 := by
  rw [closeInterval_of_inw (s := inCapture s p m e) ha rfl hw]
  simp [goTo, clearTick, inCapture, hi]

/-- The space of bit `i`, which its EDGE stores in slot `i`. -/
theorem closeBitSpace_inCapture {s : State} {i e : Nat} {m : Mem} {b : Bool}
    (ha : s.edgeArmed = true) (hi : i < 32) (hb : classifySpace s.cfg e = .bit b) :
    closeBitSpace (inCapture s (2 * i + 4) m e) =
      afterEdges s (2 * i + 5) (Mem.write m i b) := by
  have hd : (inCapture s (2 * i + 4) m e).decodeState = .named .awaitingBitSpace := by
    simp [awaitedAfter_space]
  have hval : (inCapture s (2 * i + 4) m e).bitIndex.val = i := val_bitIndexAfter_space hi
  by_cases h31 : i = 31
  · subst h31
    rw [closeBitSpace_of_bit_last (s := inCapture s _ m e) ha hd hb (Fin.ext hval)]
    rfl
  · have hne : (inCapture s (2 * i + 4) m e).bitIndex ≠ 31 := fun h =>
      h31 (hval.symm.trans (congrArg Fin.val h))
    have hmark : awaitedAfter (2 * i + 5) = .awaitingBitMark := awaitedAfter_mark (i + 1)
    rw [closeBitSpace_of_bit_next (s := inCapture s _ m e) ha hd hb hne,
      afterEdges_of_lt (by omega), bufWrite, hval]
    simp [inCapture, goTo, clearTick, hmark, bitIndexAfter_next]

/-- The buffer `m'` is `m` after the interval of `e` ticks that follows the `p`th edge: a bit space
adds its bit. -/
def recordsInterval (c : Cfg) (p e : Nat) (m m' : Mem) : Prop :=
  (∀ a b, p = 2 * a + 4 → classifySpace c e = .bit b → Mem.read? m' a = some b) ∧
    ∀ a, p ≠ 2 * a + 4 → Mem.read? m' a = Mem.read? m a

theorem recordsInterval_self {c : Cfg} {p e : Nat} (m : Mem) (h : ∀ a, p ≠ 2 * a + 4) :
    recordsInterval c p e m m :=
  ⟨fun a _ ha => absurd ha (h a), fun _ _ => rfl⟩

theorem recordsInterval_write {c : Cfg} {i e : Nat} {b : Bool} (m : Mem)
    (hb : classifySpace c e = .bit b) :
    recordsInterval c (2 * i + 4) e m (Mem.write m i b) := by
  refine ⟨fun a b' ha hb' => ?_, fun a ha => read_write_other m b (by omega)⟩
  obtain rfl : a = i := by omega
  cases hb.symm.trans hb'
  exact read_write_same m a b

/-- The EDGE at the end of an interval that passes its test moves the capture on. -/
theorem exec_edge_of_passes {s : State} {p e : Nat} (m : Mem) (ha : s.edgeArmed = true)
    (hp : p < 67) (hpass : passesTest s.cfg (awaitedAfter p) e = true) :
    ∃ m', recordsInterval s.cfg p e m m' ∧
      exec (rowOf .edge (inCapture s p m e)) (inCapture s p m e) =
        .next (afterEdges s (p + 1) m') := by
  rw [rowOf_edge_of_armed (s := inCapture s p m e) ha rfl]
  rcases edges_cases hp with rfl | rfl | rfl | ⟨i, hi, rfl⟩ | ⟨i, hi, rfl⟩
  · refine ⟨m, recordsInterval_self m (by omega), ?_⟩
    exact congrArg Host.Outcome.next (startCapture_of_idle (s := inCapture s 0 m e) ha rfl)
  iterate 2
    · exact ⟨m, recordsInterval_self m (by omega),
        congrArg Host.Outcome.next (closeInterval_inCapture ha rfl hpass)⟩
  · refine ⟨m, recordsInterval_self m (by omega), ?_⟩
    rw [awaitedAfter_mark] at hpass ⊢
    rw [afterEdges_of_lt (by omega), ← closeInterval_inCapture ha (bitIndexAfter_space i) hpass,
      awaitedAfter_mark, awaitedAfter_space]
    rfl
  · rw [awaitedAfter_space] at hpass ⊢
    obtain ⟨b, hb⟩ := exists_bit_of_passesTest hpass
    exact ⟨Mem.write m i b, recordsInterval_write m hb,
      congrArg Host.Outcome.next (closeBitSpace_inCapture ha hi hb)⟩

/-! ## One interval of a capture -/

theorem runScript_append_of_next {xs : Script} (ys : Script) {s t : State} (hw : s.cfg.wf = true)
    (hs : stateNamed s) (h : runScript xs s = .next t) :
    runScript (xs ++ ys) s = runScript ys t := by
  obtain ⟨u, hu, -, -, happend⟩ := runScript_append xs ys hw hs
  cases h.symm.trans hu
  exact happend

/-- An interval in Idle ends in an EDGE that starts a capture. -/
theorem runScript_iv_of_idle {s : State} (n : Nat) (es : Script) (hw : s.cfg.wf = true)
    (ha : s.edgeArmed = true) (hd : s.decodeState = .named .idle) :
    runScript (iv n ++ es) s = runScript es (inCapture s 1 s.frameBuffer 0) := by
  rw [iv, List.append_assoc,
    runScript_append_of_next _ hw ⟨_, hd⟩ (runScript_ticks_of_idle n hw hd)]
  exact runScript_cons es hw (exec_edge_of_idle ha hd)

/-- The ticks of an interval within the ceiling are counted. -/
theorem runScript_iv_of_le_ceiling {s : State} {p e : Nat} (m : Mem) (es : Script)
    (hw : s.cfg.wf = true) (hp : p ≠ 0) (he : e ≤ s.cfg.tickCeiling) :
    runScript (iv e ++ es) (inCapture s p m 0) = runScript (.edge :: es) (inCapture s p m e) := by
  have hrun : (inCapture s p m 0).decodeState ≠ .named .idle := by
    simpa using awaitedAfter_ne_idle hp
  have hticks := runScript_ticks_of_le_ceiling (s := inCapture s p m 0) e hw ⟨_, rfl⟩ hrun
    (by simpa [inCapture] using he)
  rw [iv, List.append_assoc,
    runScript_append_of_next (s := inCapture s p m 0) _ hw ⟨_, rfl⟩ hticks]
  simp [inCapture]

/-- An interval longer than the ceiling is a timeout, and its EDGE starts the next capture. -/
theorem runScript_iv_of_ceiling_lt {s : State} {p e : Nat} (m : Mem) (es : Script)
    (hw : s.cfg.wf = true) (ha : s.edgeArmed = true) (hp : p ≠ 0) (he : s.cfg.tickCeiling < e) :
    runScript (iv e ++ es) (inCapture s p m 0) = runScript es (inCapture s 1 m 0) := by
  have hrun : (inCapture s p m 0).decodeState ≠ .named .idle := by
    simpa using awaitedAfter_ne_idle hp
  have hticks := runScript_ticks_of_ceiling_lt (s := inCapture s p m 0) e hw ⟨_, rfl⟩ hrun
    (Nat.zero_le _) (by simpa [inCapture] using he)
  rw [iv, List.append_assoc,
    runScript_append_of_next (s := inCapture s p m 0) _ hw ⟨_, rfl⟩ hticks]
  exact runScript_iv_of_idle (s := inCapture s 0 m 0) 0 es hw ha rfl

/-- An interval that passes its test moves the capture on. -/
theorem runScript_iv_of_passes {s : State} {p e : Nat} (m : Mem) (es : Script)
    (hw : s.cfg.wf = true) (ha : s.edgeArmed = true) (hp : p < 67)
    (hpass : passesTest s.cfg (awaitedAfter p) e = true) :
    ∃ m', recordsInterval s.cfg p e m m' ∧
      runScript (iv e ++ es) (inCapture s p m 0) = runScript es (afterEdges s (p + 1) m') := by
  by_cases h0 : p = 0
  · subst h0
    exact ⟨m, recordsInterval_self m (by omega),
      runScript_iv_of_idle (s := inCapture s 0 m 0) e es hw ha rfl⟩
  · have hle := le_ceiling_of_passesTest hw (awaitedAfter_ne_idle h0) hpass
    obtain ⟨m', hm', hx⟩ := exec_edge_of_passes m ha hp hpass
    exact ⟨m', hm', (runScript_iv_of_le_ceiling m es hw h0 hle).trans
      (runScript_cons (s := inCapture s p m e) es hw hx)⟩

/-- An interval that fails its test throws the capture back to Idle, or to a first edge. -/
theorem runScript_iv_of_fails {s : State} {p e : Nat} (m : Mem) (es : Script)
    (hw : s.cfg.wf = true) (ha : s.edgeArmed = true)
    (hfail : passesTest s.cfg (awaitedAfter p) e = false) :
    p ≠ 0 ∧ ∃ q ≤ 1,
      runScript (iv e ++ es) (inCapture s p m 0) = runScript es (inCapture s q m 0) := by
  have h0 : p ≠ 0 := by
    rintro rfl
    cases hfail
  refine ⟨h0, ?_⟩
  by_cases hle : e ≤ s.cfg.tickCeiling
  · exact ⟨0, by omega, (runScript_iv_of_le_ceiling m es hw h0 hle).trans
      (runScript_cons (s := inCapture s p m e) es hw (exec_edge_of_fails ha rfl hfail))⟩
  · exact ⟨1, by omega, runScript_iv_of_ceiling_lt m es hw ha h0 (by omega)⟩

/-! ## All intervals of a capture -/

/-- The intervals left after the `p`th edge, all passing, end with the frame ready and their bits in
their slots. -/
theorem runScript_of_allPass {s : State} {p : Nat} (m : Mem) (es : List Nat)
    (hw : s.cfg.wf = true) (ha : s.edgeArmed = true) (hlen : p + es.length = 67)
    (hpass : allPass s.cfg p es) :
    ∃ m', (∀ a, 2 * a + 4 < p → Mem.read? m' a = Mem.read? m a) ∧
      (∀ k e a b, es[k]? = some e → p + k = 2 * a + 4 → classifySpace s.cfg e = .bit b →
        Mem.read? m' a = some b) ∧
      runScript (es.flatMap iv) (afterEdges s p m) = .next (frameCaptured s m') := by
  induction es generalizing p m with
  | nil =>
    obtain rfl : p = 67 := hlen
    exact ⟨m, fun _ _ => rfl, by simp, rfl⟩
  | cons e es ih =>
    rw [List.length_cons] at hlen
    have hp : p < 67 := by omega
    obtain ⟨he, hes⟩ := allPass_cons.mp hpass
    obtain ⟨m₁, ⟨hbit, hother⟩, hstep⟩ := runScript_iv_of_passes m (es.flatMap iv) hw ha hp he
    obtain ⟨m', hkept, hbits, hrun⟩ := ih m₁ (by omega) hes
    refine ⟨m', fun a hap => ?_, fun k x a b hx hpk hb => ?_, ?_⟩
    · rw [hkept a (by omega), hother a (by omega)]
    · cases k with
      | zero =>
        cases hx
        rw [hkept a (by omega), hbit a b hpk hb]
      | succ k => exact hbits k x a b hx (by omega) hb
    · rw [List.flatMap_cons, afterEdges_of_lt hp, hstep, hrun]

/-- Intervals that are too few for the rest of the capture, or of which one fails its test, end with
no frame ready: after a failure at most one edge counts, and fewer than 67 are left with it. -/
theorem runScript_not_ready {s : State} {p : Nat} (m : Mem) (es : List Nat)
    (hw : s.cfg.wf = true) (ha : s.edgeArmed = true) (hr : s.frameReady = false) (hp : p < 67)
    (hlen : p + es.length ≤ 67) (hnot : ¬(p + es.length = 67 ∧ allPass s.cfg p es)) :
    ∃ t, runScript (es.flatMap iv) (inCapture s p m 0) = .next t ∧ t.frameReady = false := by
  induction es generalizing p m with
  | nil => exact ⟨_, rfl, hr⟩
  | cons e es ih =>
    rw [List.length_cons] at hlen hnot
    rw [List.flatMap_cons]
    cases he : passesTest s.cfg (awaitedAfter p) e with
    | false =>
      obtain ⟨h0, q, hq, hstep⟩ := runScript_iv_of_fails m (es.flatMap iv) hw ha he
      rw [hstep]
      exact ih m (by omega) (by omega) fun h => by omega
    | true =>
      obtain ⟨m₁, -, hstep⟩ := runScript_iv_of_passes m (es.flatMap iv) hw ha hp he
      have hnot' : ¬(p + 1 + es.length = 67 ∧ allPass s.cfg (p + 1) es) := fun ⟨h67, hes⟩ =>
        hnot ⟨by omega, allPass_cons.mpr ⟨he, hes⟩⟩
      have hp' : p + 1 < 67 := by
        by_contra h67
        obtain rfl : es = [] := List.length_eq_zero_iff.mp (by omega)
        exact hnot' ⟨by rw [List.length_nil]; omega, allPass_nil _ _⟩
      rw [hstep, afterEdges_of_lt hp']
      exact ih m₁ hp' (by omega) hnot'

/-- From Idle: the opening edge and 66 intervals that pass their tests. -/
theorem runScript_frame {s : State} (es : List Nat) (hw : s.cfg.wf = true)
    (ha : s.edgeArmed = true) (hd : s.decodeState = .named .idle) (hlen : es.length = 66)
    (hpass : allPass s.cfg 1 es) :
    ∃ m, (∀ e a b, es[3 + 2 * a]? = some e → classifySpace s.cfg e = .bit b →
        Mem.read? m a = some b) ∧
      runScript (.edge :: es.flatMap iv) s = .next (frameCaptured s m) := by
  obtain ⟨m, -, hbits, hrun⟩ := runScript_of_allPass s.frameBuffer es hw ha (by omega) hpass
  exact ⟨m, fun e a b he hb => hbits (3 + 2 * a) e a b he (by omega) hb,
    (runScript_iv_of_idle 0 _ hw ha hd).trans hrun⟩

/-- R93's tests in its own numbering, the intervals counted from 0. -/
theorem allPass_one_iff {c : Cfg} {es : List Nat} :
    allPass c 1 es ↔ ∀ (k e : Nat), es[k]? = some e →
      (k = 0 → inw e c.sm = true) ∧ (k = 1 → inw e c.sg = true) ∧
      (2 ≤ k → k % 2 = 0 → inw e c.bm = true) ∧
      (2 ≤ k → k % 2 = 1 → inw e c.s0 = true ∨ inw e c.s1 = true) := by
  refine forall_congr' fun k => forall_congr' fun e => imp_congr_right fun _ => ?_
  rw [Nat.add_comm 1 k]
  match k with
  | 0 | 1 => simp [awaitedAfter, passesTest]
  | k + 2 =>
    rcases Nat.mod_two_eq_zero_or_one k with hk | hk <;> simp [awaitedAfter, passesTest, hk]

/-- Settles O48: all intervals pass and the frame is captured, or the edges do not suffice. -/
theorem readyExactlyAfter66Intervals : Obligations.ReadyExactlyAfter66Intervals := by
  unfold Obligations.ReadyExactlyAfter66Intervals
  intro s xs hw hd ha hr hlen
  rw [← allPass_one_iff]
  by_cases hall : xs.length = 66 ∧ allPass s.cfg 1 xs
  · obtain ⟨m, hbits, hrun⟩ := runScript_frame xs hw ha hd hall.1 hall.2
    refine ⟨_, hrun, ⟨fun _ => hall, fun _ => rfl⟩, fun _ => ⟨rowOf_edge_of_masked rfl, ?_⟩⟩
    intro k e _ he
    have hpass : passesTest s.cfg (awaitedAfter (2 * k + 4)) e = true := by
      have := hall.2 _ e he
      rwa [show 1 + (3 + 2 * k) = 2 * k + 4 by omega] at this
    rw [awaitedAfter_space] at hpass
    obtain ⟨b, hb⟩ := exists_bit_of_passesTest hpass
    exact ⟨b, hb, hbits e k b he hb⟩
  · obtain ⟨t, ht, hnone⟩ := runScript_not_ready s.frameBuffer xs hw ha hr (p := 1) (by omega)
      (by omega) fun ⟨h67, hpass⟩ => hall ⟨by omega, hpass⟩
    refine ⟨t, (runScript_iv_of_idle 0 _ hw ha hd).trans ht, ?_, ?_⟩
    · simp [hnone, hall]
    · simp [hnone]

/-! ## A frame given as marks and spaces -/

/-- The intervals of a list of bits, each a mark and a space. -/
def markSpaces (bits : List (Nat × Nat)) : List Nat := bits.flatMap fun p => [p.1, p.2]

theorem captureScript_eq (a b : Nat) (bits : List (Nat × Nat)) :
    captureScript a b bits = .edge :: (a :: b :: markSpaces bits).flatMap iv := by
  simp [captureScript, start, bitScript, markSpaces, List.flatMap_assoc]

theorem length_markSpaces (bits : List (Nat × Nat)) :
    (markSpaces bits).length = 2 * bits.length := by
  simp [markSpaces, Nat.mul_comm]

theorem getElem?_markSpaces_space (bits : List (Nat × Nat)) (i : Nat) :
    (markSpaces bits)[2 * i + 1]? = bits[i]?.map Prod.snd := by
  induction bits generalizing i with
  | nil => rfl
  | cons p bits ih =>
    cases i with
    | zero => rfl
    | succ i => exact ih i

theorem allPass_markSpaces {c : Cfg} {bits : List (Nat × Nat)} (i : Nat)
    (hmarks : ∀ p ∈ bits, inw p.1 c.bm = true)
    (hspaces : ∀ p ∈ bits, ∃ b, classifySpace c p.2 = .bit b) :
    allPass c (2 * i + 3) (markSpaces bits) := by
  induction bits generalizing i with
  | nil => exact allPass_nil _ _
  | cons p bits ih =>
    rw [List.forall_mem_cons] at hmarks hspaces
    obtain ⟨b, hb⟩ := hspaces.1
    refine allPass_cons.mpr ⟨?_, allPass_cons.mpr ⟨?_, ih (i + 1) hmarks.2 hspaces.2⟩⟩
    · rw [awaitedAfter_mark]
      exact hmarks.1
    · rw [awaitedAfter_space]
      simpa [passesTest] using inw_of_classifySpace_bit hb

/-- Settles O47: the 66 intervals pass, and bit `i` is the class of interval `3 + 2i`. -/
theorem wholeFrameIsCaptured : Obligations.WholeFrameIsCaptured := by
  unfold Obligations.WholeFrameIsCaptured
  intro s a b marks bits hw hd ha hsm hsg hlen hmarks hclass
  have hspaces : ∀ p ∈ marks, ∃ b, classifySpace s.cfg p.2 = .bit b := by
    intro p hp
    have hmem : classifySpace s.cfg p.2 ∈ bits.map SpaceClass.bit :=
      hclass ▸ List.mem_map_of_mem hp
    obtain ⟨b, -, hb⟩ := List.mem_map.mp hmem
    exact ⟨b, hb.symm⟩
  have hpass : allPass s.cfg 1 (a :: b :: markSpaces marks) :=
    allPass_cons.mpr ⟨hsm, allPass_cons.mpr ⟨hsg, allPass_markSpaces 0 hmarks hspaces⟩⟩
  obtain ⟨m, hbits, hrun⟩ := runScript_frame (a :: b :: markSpaces marks) hw ha hd
    (by simp [length_markSpaces, hlen]) hpass
  refine ⟨m, fun i hi => ?_, ?_⟩
  · have hget : marks[i]? = some marks[i] := List.getElem?_eq_getElem _
    have hspace := getElem?_markSpaces_space marks i
    have hbit := congrArg (·[i]?) hclass
    simp only [List.getElem?_map, hget, Option.map_some] at hspace hbit
    obtain ⟨b', hb', hclass'⟩ := Option.map_eq_some_iff.mp hbit.symm
    rw [hb']
    refine hbits marks[i].2 i b' ?_ hclass'.symm
    rwa [Nat.add_comm 3]
  · rw [captureScript_eq, hrun]
    simp [frameCaptured, complete, hd]

end Sys2Proof.Machine
end

section
/-! PROOF. The statements of 42_frame_decoder.md: the checks and the result for four bytes (R101 to
R107), the two rows of TRY_RECEIVE (R99, R103), and a frame from its first edge to its answer
(R109). -/

namespace Sys2Proof.Machine

/-! ## The two checks (R101, R102) -/

theorem cmdOk_iff {b2 b3 : Byte} : cmdOk b2 b3 = true ↔ b2.toNat + b3.toNat = 255 := by
  simp [cmdOk]

theorem sumOk_iff {b0 b1 b2 b3 : Byte} :
    sumOk b0 b1 b2 b3 = true ↔ b0.toNat + b1.toNat + b2.toNat + b3.toNat = 510 := by
  simp [sumOk]

theorem eq_not_iff_add_eq {a b : Byte} : b = ~~~ a ↔ a.toNat + b.toNat = 255 := by
  have ha : a.toNat < 2 ^ 8 := a.isLt
  rw [← BitVec.toNat_inj, BitVec.toNat_not]
  omega

theorem cmdOk_iff_eq_not {b2 b3 : Byte} : cmdOk b2 b3 = true ↔ b3 = ~~~ b2 :=
  cmdOk_iff.trans eq_not_iff_add_eq.symm

/-- What is left of 510 after one complementary pair is another. -/
theorem checks_iff_eq_not {b0 b1 b2 b3 : Byte} :
    cmdOk b2 b3 = true ∧ sumOk b0 b1 b2 b3 = true ↔ b1 = ~~~ b0 ∧ b3 = ~~~ b2 := by
  rw [cmdOk_iff, sumOk_iff, eq_not_iff_add_eq, eq_not_iff_add_eq]
  omega

/-! ## The result for four bytes (R104 to R107) -/

theorem result_full (b0 b1 b2 b3 : Byte) :
    result .full b0 b1 b2 b3 =
      if cmdOk b2 b3 = true ∧ sumOk b0 b1 b2 b3 = true then .frame (composeAddress b0 b1) b2
      else .noData := by
  simp [result]

theorem result_full_of_complements {b0 b1 b2 b3 : Byte} (h : b1 = ~~~ b0 ∧ b3 = ~~~ b2) :
    result .full b0 b1 b2 b3 = .frame (composeAddress b0 b1) b2 := by
  rw [result_full, if_pos (checks_iff_eq_not.mpr h)]

theorem result_full_of_not_complements {b0 b1 b2 b3 : Byte} (h : ¬(b1 = ~~~ b0 ∧ b3 = ~~~ b2)) :
    result .full b0 b1 b2 b3 = .noData := by
  rw [result_full, if_neg (mt checks_iff_eq_not.mp h)]

theorem result_cmdCheck_of_complement {b0 b1 b2 b3 : Byte} (h : b3 = ~~~ b2) :
    result .cmdCheck b0 b1 b2 b3 = .frame (composeAddress b0 b1) b2 := by
  rw [result, if_pos (cmdOk_iff_eq_not.mpr h)]

/-- Every answer is nothing or the whole frame in the variants that check, the command in LIGHT. -/
theorem result_cases (v : Variant) (b0 b1 b2 b3 : Byte) :
    (v ≠ .light ∧ result v b0 b1 b2 b3 = .noData) ∨
      (v ≠ .light ∧ result v b0 b1 b2 b3 = .frame (composeAddress b0 b1) b2) ∨
      (v = .light ∧ result v b0 b1 b2 b3 = .command b2) := by
  cases v with
  | full | cmdCheck =>
    simp only [result]
    split <;> simp
  | light => exact .inr (.inr ⟨rfl, rfl⟩)

theorem toNat_composeAddress (b0 b1 : Byte) :
    (composeAddress b0 b1).toNat = b0.toNat + 256 * b1.toNat := by
  rw [composeAddress, toNat_append_eq_add]
  omega

@[simp] theorem high_composeAddress (b0 b1 : Byte) :
    (composeAddress b0 b1).extractLsb' 8 8 = b1 := BitVec.extractLsb'_append_eq_left

@[simp] theorem low_composeAddress (b0 b1 : Byte) :
    (composeAddress b0 b1).extractLsb' 0 8 = b0 := BitVec.extractLsb'_append_eq_right

theorem composeAddress_halves (a : BitVec 16) :
    composeAddress (a.extractLsb' 0 8) (a.extractLsb' 8 8) = a := by
  rw [composeAddress,
    BitVec.extractLsb'_append_extractLsb'_eq_extractLsb' (show 8 = 0 + 8 from rfl)]
  exact BitVec.extractLsb'_eq_self

/-- Settles O19: each pair that sums to 255 is complementary, and 510 is two such pairs. -/
theorem fullAcceptsExactlyComplements : Obligations.FullAcceptsExactlyComplements := by
  unfold Obligations.FullAcceptsExactlyComplements
  intro b0 b1 b2 b3
  exact ⟨cmdOk_iff, cmdOk_iff_eq_not, sumOk_iff, fun hc hs => (checks_iff_eq_not.mp ⟨hc, hs⟩).1,
    result_full b0 b1 b2 b3, result_full_of_complements, result_full_of_not_complements⟩

/-- Settles O20: an answer with an address is the composed frame; under FULL its bytes are
complementary, under CMD_CHECK the halves of any address can be sent. -/
theorem addressIsHighLow : Obligations.AddressIsHighLow := by
  unfold Obligations.AddressIsHighLow
  refine ⟨fun b0 b1 => ⟨toNat_composeAddress b0 b1, high_composeAddress b0 b1,
    low_composeAddress b0 b1⟩, ?_, ?_⟩
  · intro v b0 b1 b2 b3 a c h
    rcases result_cases v b0 b1 b2 b3 with ⟨-, e⟩ | ⟨-, e⟩ | ⟨-, e⟩ <;> cases e.symm.trans h
    exact ⟨rfl, rfl⟩
  · intro b0 b1 b2 b3 a c
    constructor
    · intro h
      by_cases hpairs : b1 = ~~~ b0 ∧ b3 = ~~~ b2
      · cases (result_full_of_complements hpairs).symm.trans h
        rw [high_composeAddress, low_composeAddress]
        exact hpairs.1
      · cases (result_full_of_not_complements hpairs).symm.trans h
    · refine ⟨a.extractLsb' 0 8, a.extractLsb' 8 8, ?_⟩
      rw [result_cmdCheck_of_complement rfl, composeAddress_halves]

/-- Settles O22: the outputs are read off each of the three forms of an answer. -/
theorem outputsShowStateAndAnswer : Obligations.OutputsShowStateAndAnswer := by
  unfold Obligations.OutputsShowStateAndAnswer
  refine ⟨fun s => ⟨rfl, rfl, timerRun_iff⟩, ?_⟩
  intro v b0 b1 b2 b3
  rcases result_cases v b0 b1 b2 b3 with ⟨hv, e⟩ | ⟨hv, e⟩ | ⟨hv, e⟩ <;> rw [e]
  · simp [Response.rdValid, Response.rdCommand, Response.rdAddress, hv]
  · simp [Response.rdValid, Response.rdCommand, Response.rdAddress, composeAddress, hv]
  · simp [Response.rdValid, Response.rdCommand, Response.rdAddress, hv]

/-! ## One TRY_RECEIVE (R99, R103) -/

theorem rowOf_tryReceive_of_notReady {s : State} (hr : s.frameReady = false) :
    rowOf .tryReceive s = .recvEmpty := by
  simp [rowOf_eq, dispatchClass, hr]

theorem rowOf_tryReceive_of_ready {s : State} (hr : s.frameReady = true) :
    rowOf .tryReceive s = .recvReady := by
  simp [rowOf_eq, dispatchClass, hr]

theorem answerEmpty_of_notReady {s : State} (hr : s.frameReady = false) :
    answerEmpty s = { s with response := some .noData } := if_pos hr

theorem consumeFrame_of_ready {s : State} (hr : s.frameReady = true) :
    consumeFrame s =
      { s with frameReady := false, edgeArmed := true, response := some (bufferResult s) } :=
  if_pos hr

/-- The row runs whatever requests are left and whatever was answered before. -/
theorem exec_tryReceive_of_notReady {s : State} (hr : s.frameReady = false) (l : List Strobes)
    (r : Option Response) :
    exec (rowOf .tryReceive s) { s with inputs := l, response := r } =
      .next { s with inputs := l, response := some .noData } := by
  rw [rowOf_tryReceive_of_notReady hr]
  exact congrArg Host.Outcome.next
    (answerEmpty_of_notReady (s := { s with inputs := l, response := r }) hr)

theorem exec_tryReceive_of_ready {s : State} (hr : s.frameReady = true) (l : List Strobes)
    (r : Option Response) :
    exec (rowOf .tryReceive s) { s with inputs := l, response := r } =
      .next { s with
        frameReady := false
        edgeArmed := true
        inputs := l
        response := some (bufferResult s) } := by
  rw [rowOf_tryReceive_of_ready hr]
  exact congrArg Host.Outcome.next
    (consumeFrame_of_ready (s := { s with inputs := l, response := r }) hr)

theorem runScript_tryReceive_of_notReady {s : State} (es : Script) (hw : s.cfg.wf = true)
    (hr : s.frameReady = false) :
    runScript (.tryReceive :: es) s = runScript es { s with response := some .noData } :=
  runScript_cons es hw (exec_tryReceive_of_notReady hr s.inputs none)

theorem runScript_tryReceive_of_ready {s : State} (es : Script) (hw : s.cfg.wf = true)
    (hr : s.frameReady = true) :
    runScript (.tryReceive :: es) s = runScript es { s with
      frameReady := false
      edgeArmed := true
      response := some (bufferResult s) } :=
  runScript_cons es hw (exec_tryReceive_of_ready hr s.inputs none)

/-- Settles O17: FrameReady = 0 is RECV.EMPTY, which writes the response alone. -/
theorem receiveWithNothingReady : Obligations.ReceiveWithNothingReady := by
  unfold Obligations.ReceiveWithNothingReady
  exact fun _ hr => ⟨rowOf_tryReceive_of_notReady hr,
    congrArg Host.Outcome.next (answerEmpty_of_notReady hr)⟩

/-- Settles O18: FrameReady = 1 is RECV.READY, whose answer is the result for the bytes in the
buffer, variant by variant. -/
theorem receiveConsumesReadyFrame : Obligations.ReceiveConsumesReadyFrame := by
  unfold Obligations.ReceiveConsumesReadyFrame
  intro s hr
  refine ⟨rowOf_tryReceive_of_ready hr,
    congrArg Host.Outcome.next ((consumeFrame_of_ready hr).trans ?_)⟩
  rw [bufferResult]
  cases hv : s.cfg.variant with
  | full => simp only [result_full, cmdOk_iff, sumOk_iff, composeAddress]
  | cmdCheck => simp only [result, cmdOk_iff, composeAddress]
  | light => rfl

/-- Settles O23: the first step clears FrameReady, so the second is that of RECV.EMPTY. -/
theorem secondReceiveFindsNothing : Obligations.SecondReceiveFindsNothing := by
  unfold Obligations.SecondReceiveFindsNothing
  intro s rest hw hr hin
  refine ⟨_, (step_only hw hin).trans (exec_tryReceive_of_ready hr _ none), rfl, ?_⟩
  rw [step_only (ev := .tryReceive) (rest := rest), exec_tryReceive_of_notReady]
  · rfl
  · exact hw
  · rfl

/-! ## The bytes of a captured frame (20_memory.md R39) -/

/-- Bytes sent one after another, least significant bit first: bit `8k + i` is bit `i` of byte
`k`. -/
theorem getElem?_flatMap_byteBits (bs : List Byte) {k i : Nat} (hi : i < 8) :
    (bs.flatMap byteBits)[8 * k + i]? = bs[k]?.map fun v => v.getLsbD i := by
  induction bs generalizing k with
  | nil => rfl
  | cons v bs ih =>
    have hlen : (byteBits v).length = 8 := by simp [byteBits]
    rw [List.flatMap_cons]
    cases k with
    | zero =>
      rw [List.getElem?_append_left (by omega)]
      simp [byteBits, hi]
    | succ k =>
      rw [List.getElem?_append_right (by omega), hlen,
        show 8 * (k + 1) + i - 8 = 8 * k + i by omega]
      exact ih

theorem frameBits_eq_flatMap (b0 b1 b2 b3 : Byte) :
    frameBits b0 b1 b2 b3 = [b0, b1, b2, b3].flatMap byteBits := by
  simp [frameBits]

/-- A buffer that holds the bits of four bytes in order of arrival holds the four bytes. -/
theorem byteAt_of_frameBits {s : State} {b0 b1 b2 b3 v : Byte}
    (hbits : ∀ i, i < 32 → Mem.read? s.frameBuffer i = (frameBits b0 b1 b2 b3)[i]?) {k : Nat}
    (hk : k < 4) (hv : [b0, b1, b2, b3][k]? = some v) : byteAt s k = v := by
  refine BitVec.eq_of_getLsbD_eq fun i hi => ?_
  rw [getLsbD_byteAt s k i hi]
  refine slot_of_read ?_
  rw [hbits _ (by omega), frameBits_eq_flatMap, getElem?_flatMap_byteBits _ hi, hv]
  rfl

theorem bufferResult_of_frameBits {s : State} {b0 b1 b2 b3 : Byte}
    (hbits : ∀ i, i < 32 → Mem.read? s.frameBuffer i = (frameBits b0 b1 b2 b3)[i]?) :
    bufferResult s = result s.cfg.variant b0 b1 b2 b3 := by
  rw [bufferResult, byteAt_of_frameBits hbits (k := 0) (by omega) rfl,
    byteAt_of_frameBits hbits (k := 1) (by omega) rfl,
    byteAt_of_frameBits hbits (k := 2) (by omega) rfl,
    byteAt_of_frameBits hbits (k := 3) (by omega) rfl]

/-! ## A frame sent with script constants (30_encoding.md R71, R72) -/

theorem fits_iff {k : ScriptConsts} {c : Cfg} :
    k.fits c = true ↔ inw k.a c.sm = true ∧ inw k.g c.sg = true ∧ inw k.m c.bm = true ∧
      inw k.z c.s0 = true ∧ inw k.o c.s1 = true := by
  simp [ScriptConsts.fits, and_assoc]

/-- The space of `BITV(b)` spells `b`. -/
theorem classifySpace_bitv {k : ScriptConsts} {c : Cfg} (hc : c.wf = true)
    (hz : inw k.z c.s0 = true) (ho : inw k.o c.s1 = true) (b : Bool) :
    classifySpace c (k.bitv b).2 = .bit b := by
  cases b with
  | false => exact classifySpace_eq_bit hc (.inl ⟨hz, rfl⟩)
  | true => exact classifySpace_eq_bit hc (.inr ⟨ho, rfl⟩)

/-- A frame script is a capture of its 32 bits. -/
theorem runScript_frameScript {s : State} {k : ScriptConsts} (b0 b1 b2 b3 : Byte)
    (hw : s.cfg.wf = true) (hk : k.fits s.cfg = true) (hd : s.decodeState = .named .idle)
    (ha : s.edgeArmed = true) :
    ∃ m : Mem, (∀ i, i < 32 → Mem.read? m i = (frameBits b0 b1 b2 b3)[i]?) ∧
      runScript (frameScript k b0 b1 b2 b3) s = .next { s with
        frameBuffer := m
        frameReady := true
        edgeArmed := false
        tickCount := 0
        bitIndex := 0
        response := none } := by
  obtain ⟨hsm, hsg, hbm, hz, ho⟩ := fits_iff.mp hk
  refine wholeFrameIsCaptured s k.a k.g ((frameBits b0 b1 b2 b3).map k.bitv)
    (frameBits b0 b1 b2 b3) hw hd ha hsm hsg ?_ ?_ ?_
  · rw [List.length_map, length_frameBits]
  · intro p hp
    obtain ⟨b, -, rfl⟩ := List.mem_map.mp hp
    exact hbm
  · rw [List.map_map]
    exact List.map_congr_left fun b _ => classifySpace_bitv hw hz ho b

/-- Settles O49: the script captures the four bytes, the first TRY_RECEIVE consumes them, and the
second finds nothing. -/
theorem sentFrameIsDeliveredOnce : Obligations.SentFrameIsDeliveredOnce := by
  unfold Obligations.SentFrameIsDeliveredOnce
  intro s k b0 b1 b2 b3 hw hk hd ha
  obtain ⟨m, hbits, hrun⟩ := runScript_frameScript b0 b1 b2 b3 hw hk hd ha
  have hfirst (es : Script) :
      runScript (frameScript k b0 b1 b2 b3 ++ .tryReceive :: es) s = runScript es { s with
        frameBuffer := m
        frameReady := false
        edgeArmed := true
        tickCount := 0
        bitIndex := 0
        response := some (result s.cfg.variant b0 b1 b2 b3) } := by
    rw [runScript_append_of_next _ hw ⟨_, hd⟩ hrun, runScript_tryReceive_of_ready es,
      bufferResult_of_frameBits hbits]
    · exact hw
    · rfl
  refine ⟨m, hfirst [], (hfirst [.tryReceive]).trans ?_⟩
  rw [runScript_tryReceive_of_notReady [], runScript_nil]
  · exact hw
  · rfl

end Sys2Proof.Machine
end

section
/-! PROOF. The statements of 60_exceptions.md: when each of the four conditions is raised and what
it does (R112 to R115), and the state an abort leaves (R120). -/

namespace Sys2Proof.Machine

/-! ## The tests behind the conditions -/

theorem violationUnless_eq_some_iff {ok : Bool} {c : Condition} :
    violationUnless ok = some c ↔ ok = false ∧ c = .timingViolation := by
  cases ok <;> simp [violationUnless, eq_comm (b := c)]

theorem timeoutCondition_eq_some_iff {s : State} {c : Condition} :
    timeoutCondition s = some c ↔ s.cfg.tickCeiling ≤ s.tickCount ∧ c = .timeout := by
  by_cases h : s.cfg.tickCeiling ≤ s.tickCount <;>
    simp [timeoutCondition, atCeiling_iff, h, eq_comm (b := c)]

theorem checksumCondition_eq_some_iff {s : State} {c : Condition} :
    checksumCondition s = some c ↔ bufferResult s = .noData ∧ c = .checksumMismatch := by
  by_cases h : bufferResult s = .noData <;> simp [checksumCondition, h, eq_comm (b := c)]

/-- The answer is `None` exactly when the check of the variant fails; LIGHT has none (R104 to
R106). -/
theorem result_eq_noData_iff {v : Variant} {b0 b1 b2 b3 : Byte} :
    result v b0 b1 b2 b3 = .noData ↔
      (v = .full ∧ (cmdOk b2 b3 && sumOk b0 b1 b2 b3) = false) ∨
        (v = .cmdCheck ∧ cmdOk b2 b3 = false) := by
  cases v with
  | full => cases h : cmdOk b2 b3 && sumOk b0 b1 b2 b3 <;> simp [result, h]
  | cmdCheck => cases h : cmdOk b2 b3 <;> simp [result, h]
  | light => simp [result]

/-- The failing test of an armed EDGE, state by state (R112). -/
theorem exists_failed_test_iff {c : Cfg} {r : StateReg} {e : Nat} :
    (∃ d, r = .named d ∧ passesTest c d e = false) ↔
      (r = .named .awaitingStartLow ∧ inw e c.sm = false) ∨
        (r = .named .awaitingFirstBitGap ∧ inw e c.sg = false) ∨
        (r = .named .awaitingBitMark ∧ inw e c.bm = false) ∨
        (r = .named .awaitingBitSpace ∧ inw e c.s0 = false ∧ inw e c.s1 = false) := by
  constructor
  · rintro ⟨d, rfl, h⟩
    cases d with
    | idle => simp [passesTest] at h
    | awaitingStartLow | awaitingFirstBitGap | awaitingBitMark | awaitingBitSpace =>
      simpa [passesTest] using h
  · rintro (⟨rfl, h⟩ | ⟨rfl, h⟩ | ⟨rfl, h⟩ | ⟨rfl, h0, h1⟩)
    iterate 3 exact ⟨_, rfl, h⟩
    · exact ⟨_, rfl, by simp [passesTest, h0, h1]⟩

/-! ## The condition of each kind of event -/

theorem condition_edge_of_masked {s : State} (ha : s.edgeArmed = false) :
    condition (rowOf .edge s) s = some .overwriteSuppression := by
  rw [rowOf_edge_of_masked ha]
  rfl

theorem condition_edge_of_armed {s : State} {d : DecodeState} (ha : s.edgeArmed = true)
    (hd : s.decodeState = .named d) :
    condition (rowOf .edge s) s = violationUnless (passesTest s.cfg d s.tickCount) := by
  rw [rowOf_edge_of_armed ha hd]
  cases d <;> rfl

theorem condition_tick {s : State} (hs : stateNamed s) :
    condition (rowOf .tick s) s =
      if s.decodeState = .named .idle then none else timeoutCondition s := by
  obtain ⟨d, hd⟩ := hs
  rw [rowOf_eq, hd]
  cases d <;> rfl

theorem condition_tryReceive (s : State) :
    condition (rowOf .tryReceive s) s = if s.frameReady then checksumCondition s else none := by
  cases hr : s.frameReady
  · rw [rowOf_tryReceive_of_notReady hr]
    rfl
  · rw [rowOf_tryReceive_of_ready hr]
    rfl

theorem condition_reset (s : State) : condition (rowOf .reset s) s = none := by
  rw [rowOf_eq]
  rfl

/-- Every way an event can raise a condition. -/
theorem condition_eq_some_iff {ev : Event} {s : State} {c : Condition} (hs : stateNamed s) :
    condition (rowOf ev s) s = some c ↔
      (c = .timingViolation ∧ ev = .edge ∧ s.edgeArmed = true ∧
        ∃ d, s.decodeState = .named d ∧ passesTest s.cfg d s.tickCount = false) ∨
      (c = .timeout ∧ ev = .tick ∧ s.decodeState ≠ .named .idle ∧
        s.cfg.tickCeiling ≤ s.tickCount) ∨
      (c = .checksumMismatch ∧ ev = .tryReceive ∧ s.frameReady = true ∧
        bufferResult s = .noData) ∨
      (c = .overwriteSuppression ∧ ev = .edge ∧ s.edgeArmed = false) := by
  cases ev with
  | tick =>
    rw [condition_tick hs]
    by_cases hi : s.decodeState = .named .idle <;>
      simp [hi, timeoutCondition_eq_some_iff, and_comm (b := c = _)]
  | edge =>
    cases ha : s.edgeArmed
    · simp [condition_edge_of_masked ha, eq_comm (b := c)]
    · obtain ⟨d, hd⟩ := hs
      simp [condition_edge_of_armed ha hd, hd, violationUnless_eq_some_iff, and_comm (b := c = _)]
  | tryReceive =>
    rw [condition_tryReceive]
    cases s.frameReady <;> simp [checksumCondition_eq_some_iff, and_comm (b := c = _)]
  | reset => simp [condition_reset]

theorem timingViolation_iff {ev : Event} {s : State} (hs : stateNamed s) :
    condition (rowOf ev s) s = some .timingViolation ↔
      ev = .edge ∧ s.edgeArmed = true ∧
        ∃ d, s.decodeState = .named d ∧ passesTest s.cfg d s.tickCount = false := by
  simp [condition_eq_some_iff hs]

theorem timeout_iff {ev : Event} {s : State} (hs : stateNamed s) :
    condition (rowOf ev s) s = some .timeout ↔
      ev = .tick ∧ s.decodeState ≠ .named .idle ∧ s.cfg.tickCeiling ≤ s.tickCount := by
  simp [condition_eq_some_iff hs]

theorem checksumMismatch_iff {ev : Event} {s : State} (hs : stateNamed s) :
    condition (rowOf ev s) s = some .checksumMismatch ↔
      ev = .tryReceive ∧ s.frameReady = true ∧ bufferResult s = .noData := by
  simp [condition_eq_some_iff hs]

theorem overwriteSuppression_iff {ev : Event} {s : State} (hs : stateNamed s) :
    condition (rowOf ev s) s = some .overwriteSuppression ↔
      ev = .edge ∧ s.edgeArmed = false := by
  simp [condition_eq_some_iff hs]

/-! ## The effect of each condition -/

/-- A timing violation or a timeout ends a capture that is going on (R112, R113). -/
theorem exec_aborts {ev : Event} {s : State} (hs : stateNamed s)
    (h : condition (rowOf ev s) s = some .timingViolation ∨
      condition (rowOf ev s) s = some .timeout) :
    s.decodeState ≠ .named .idle ∧ ∃ cause, exec (rowOf ev s) s = .next (abort cause s) := by
  rw [timingViolation_iff hs, timeout_iff hs] at h
  rcases h with ⟨rfl, ha, d, hd, hfails⟩ | ⟨rfl, hcapture, hceiling⟩
  · refine ⟨?_, .violation, exec_edge_of_fails ha hd hfails⟩
    intro hi
    cases hd.symm.trans hi
    simp [passesTest] at hfails
  · refine ⟨hcapture, .timeout, ?_⟩
    rw [exec_rowOf_tick hs, tickRun_of_ceiling_le hcapture hceiling]

/-- A frame that fails its check is consumed and answered `None` (R114). -/
theorem exec_of_checksumMismatch {ev : Event} {s : State} (hs : stateNamed s)
    (h : condition (rowOf ev s) s = some .checksumMismatch) :
    exec (rowOf ev s) s = .next { s with
      frameReady := false
      edgeArmed := true
      response := some .noData } := by
  obtain ⟨rfl, hr, hnone⟩ := (checksumMismatch_iff hs).mp h
  rw [← hnone]
  exact exec_tryReceive_of_ready hr s.inputs s.response

/-- A suppressed EDGE is EDGE.MASKED (R115). -/
theorem exec_of_overwriteSuppression {ev : Event} {s : State} (hs : stateNamed s)
    (h : condition (rowOf ev s) s = some .overwriteSuppression) :
    exec (rowOf ev s) s = .next s := by
  obtain ⟨rfl, ha⟩ := (overwriteSuppression_iff hs).mp h
  rw [rowOf_edge_of_masked ha]
  rfl

/-- Settles O43: each condition's causes, with the failing tests and checks written out, then its
effect. -/
theorem conditionsAndTheirEffects : Obligations.ConditionsAndTheirEffects := by
  unfold Obligations.ConditionsAndTheirEffects
  intro ev s hs
  refine ⟨?_, timeout_iff hs, ?_, overwriteSuppression_iff hs, fun h => ?_,
    exec_of_checksumMismatch hs, exec_of_overwriteSuppression hs⟩
  · rw [timingViolation_iff hs, exists_failed_test_iff]
  · rw [checksumMismatch_iff hs, bufferResult, result_eq_noData_iff]
  · obtain ⟨-, cause, hx⟩ := exec_aborts hs h
    exact hx

/-! ## The state after an abort (R120) -/

/-- During a capture no frame is ready (R27), so the edge source is armed (R26): the two elements
that RESET writes and `abort` does not hold their reset values already. -/
theorem abort_eq_resetElements {s : State} (h : Inv s) (hd : s.decodeState ≠ .named .idle)
    (cause : AbortCause) : abort cause s = resetElements s := by
  have hready : s.frameReady = false := Bool.eq_false_iff.mpr (mt h.readyIdle hd)
  have harmed : s.edgeArmed = true := by
    have hnot : s.edgeArmed = !s.frameReady := h.armed
    simpa [hready] using hnot
  rw [abort, resetElements, ← hready, ← harmed]

/-- Settles O44: both conditions abort a capture, and RESET runs `resetElements`. -/
theorem abortLeavesFreshBlock : Obligations.AbortLeavesFreshBlock := by
  unfold Obligations.AbortLeavesFreshBlock
  intro ev s h hcond
  obtain ⟨hd, cause, hx⟩ := exec_aborts h.named hcond
  rw [hx, abort_eq_resetElements h hd cause]
  rfl

end Sys2Proof.Machine
end

section
/-! PROOF. The statements of 70_reset_and_hazards.md: what RESET writes (R131), and the lone edge
that the timeout recovers from (R140, R149). -/

namespace Sys2Proof.Machine

/-! ## RESET (R131) -/

/-- RESET has one class, whatever the state (30_encoding.md R64). -/
theorem rowOf_reset (s : State) : rowOf .reset s = .reset := rowOf_eq .reset s

/-- The reset state of a run holds the reset values of all five elements already. -/
theorem resetElements_resetWith (c : Cfg) (p : Nat) :
    resetElements (State.resetWith c p) = State.resetWith c p := rfl

/-- Settles O1: RESET runs `resetElements`, of which the reset state is a fixed point. -/
theorem resetWritesFiveElements : Obligations.ResetWritesFiveElements := by
  unfold Obligations.ResetWritesFiveElements
  constructor
  · intro s
    exact ⟨rowOf_reset s, rfl⟩
  · intro c p
    exact congrArg Host.Outcome.next (resetElements_resetWith c p)

/-! ## A lone edge (R140, R149) -/

/-- Settles O51: the edge starts a capture with a count of 0, which more ticks than the ceiling
abort; the abort brings DecodeState back to Idle and leaves both counters 0. -/
theorem loneEdgeTimesOut : Obligations.LoneEdgeTimesOut := by
  unfold Obligations.LoneEdgeTimesOut
  intro s hw ha hd
  have hrun : (inCapture s 1 s.frameBuffer 0).decodeState ≠ .named .idle := by
    simpa using awaitedAfter_ne_idle Nat.one_ne_zero
  have hpast : s.cfg.tickCeiling < 0 + (s.cfg.tickCeiling + 1) := by omega
  calc runScript (.edge :: ticks (s.cfg.tickCeiling + 1)) s
      = runScript (ticks (s.cfg.tickCeiling + 1)) (inCapture s 1 s.frameBuffer 0) :=
        runScript_cons _ hw (exec_edge_of_idle ha hd)
    _ = .next { abort .timeout (inCapture s 1 s.frameBuffer 0) with response := none } :=
        runScript_ticks_of_ceiling_lt _ hw ⟨_, rfl⟩ hrun (Nat.zero_le _) hpast
    _ = .next { s with tickCount := 0, bitIndex := 0, response := none } := by
        simp [abort, inCapture, ← hd]

end Sys2Proof.Machine
end
